-- ==== Sys2Proof/Word.lean ====
section
/-! DEFINITION. The word types of the block: the quantities the spec treats as bits. -/

namespace Sys2Proof

/-- `u8` (R10): a wire byte, a buffer entry, a type. -/
abbrev Byte := BitVec 8

/-- `u32` (R10): the bus data width `BUS_WIDTH` (R8, R22) and the value written to CMD (R90). -/
abbrev Word := BitVec 32

/-- A register number `N`, 10 bits (R22). -/
abbrev RegNum := BitVec 10

end Sys2Proof
end

