-- ==== Sys2Proof/Config.lean ====
section
/-! DEFINITION. The parameters of R8: the fixed ones as numerals, the two OPEN ones as one opaque constant. -/

namespace Sys2Proof.Config

/-- `MAX_LEN` (R8): the largest value of the one-byte length field; also the number of RXBUF entries (R46). -/
def maxLen : Nat := 255

/-- `MAX_PAYLOAD = MAX_LEN - 2` (R8); also the number of PBUF entries (R45). -/
def maxPayload : Nat := 253

/-- `MAX_WRITE_DATA = MAX_PAYLOAD - 4` (R8): the data bytes one FLASH_WRITE can carry. -/
def maxWriteData : Nat := 249

/-- The number of RSP_DATA entries, `MAX_PAYLOAD - 1` (R47). -/
def maxData : Nat := 252

/-- `BAUD_NUMERATOR` (R8). -/
def baudNumerator : Nat := 1000000

/-- The two parameters R8 leaves to the implementation (D12, D16). -/
structure Params where
  /-- `VERIFY_RX_CHECKSUM` (R8, R118). -/
  verifyRxChecksum : Bool
  /-- `RXQ_DEPTH` above its least legal value: `none` is `unbounded`, `some e` is depth `256 + e`. Every value R8
  admits is written so in exactly one way, and no value it excludes can be. -/
  rxqExtra : Option Nat
deriving DecidableEq, Repr, Inhabited

/-- `RXQ_DEPTH` (R8): a natural number of at least 256, or `none` for `unbounded`. -/
def Params.rxqDepth (p : Params) : Option Nat := p.rxqExtra.map (256 + ·)

/-- The parameters of the block at hand. OPEN in the spec (D12, D16): nothing in Lean can evaluate this constant, so a
statement about the machine holds for every value of it (log 6). -/
opaque params : Params

end Sys2Proof.Config
end

