-- ==== Sys2Proof/Syntax.lean ====
section
/-! DEFINITION. The operations of the block: one constructor of `Instr` per row of the opcode table (R95). -/

namespace Sys2Proof

/-- The operations a CMD write can run (R90, R91): the 11 CMD rows of the opcode table. -/
inductive Command where
  | flashErase
  | flashWrite
  | flashRead
  | ramRead
  | flashId
  | changeBaud
  | selectFlashType
  | chipId
  /-- `t` is `CMD.TYPE`, any frame type (R115). -/
  | encodeRaw (t : Byte)
  | recv
  | clear
deriving DecidableEq, Repr

/-- The response kinds of the registry (R150). -/
inductive Kind where
  | generic
  | flashId
  | baudAck
  | chipId
deriving DecidableEq, Repr

/-- One constructor per row of the opcode table (R95). -/
inductive Instr where
  /-- FLASH_ERASE (R172). -/
  | flashErase
  /-- FLASH_WRITE (R173). -/
  | flashWrite
  /-- FLASH_READ (R174). -/
  | flashRead
  /-- RAM_READ (R175). -/
  | ramRead
  /-- FLASH_ID (R177). -/
  | flashId
  /-- CHANGE_BAUD (R180). -/
  | changeBaud
  /-- SELECT_FLASH_TYPE (R181). -/
  | selectFlashType
  /-- CHIP_ID (R182). -/
  | chipId
  /-- ENCODE_RAW (R115): `t` is `CMD.TYPE`. -/
  | encodeRaw (t : Byte)
  /-- RECV (R129). -/
  | recv
  /-- CLEAR (R130). -/
  | clear
  /-- REG_READ (R200) of register number `n`. -/
  | regRead (n : RegNum)
  /-- REG_WRITE (R201) of `v` to register number `n`. -/
  | regWrite (n : RegNum) (v : Word)
  /-- RX_BYTE (R120): the UART receiver delivers `b`. -/
  | rxByte (b : Byte)
  /-- RX_TIMEOUT (R124). -/
  | rxTimeout
  /-- RX_STEP (R121): the receiver's internal step. -/
  | rxStep
  /-- The parse rule of a received type byte 0x33 (R156). -/
  | rspChipId
  /-- The parse rule of a received type byte 0x26 (R157). -/
  | rspFlashId
  /-- The parse rule of a received type byte 0x28 (R158). -/
  | rspBaudAck
  /-- The parse rule of every other received type byte `t` (R159). -/
  | rspGeneric (t : Byte)
deriving DecidableEq, Repr

/-- The opcode-table row of a CMD operation. -/
def Command.toInstr : Command → Instr
  | .flashErase => .flashErase
  | .flashWrite => .flashWrite
  | .flashRead => .flashRead
  | .ramRead => .ramRead
  | .flashId => .flashId
  | .changeBaud => .changeBaud
  | .selectFlashType => .selectFlashType
  | .chipId => .chipId
  | .encodeRaw t => .encodeRaw t
  | .recv => .recv
  | .clear => .clear

/-- The four encoded objects an opcode-table row matches on (R95). -/
inductive CodeWord where
  /-- The 32-bit value of a bus write to CMD (R90). -/
  | cmd (v : Word)
  /-- A 43-bit host bus transaction (R93). -/
  | bus (w : BitVec 43)
  /-- A 10-bit receiver event word (R94). -/
  | event (w : BitVec 10)
  /-- A received type byte, `RXBUF[0]` (R95, R153). -/
  | response (t : Byte)
deriving DecidableEq, Repr

end Sys2Proof
end

