-- ==== Sys2Proof/Machine/State.lean ====
section
/-! DEFINITION. The architectural state (R20-R49), its reset values (R50), and the ways a step can stop (none, log 14). -/

namespace Sys2Proof.Machine

/-- STATUS.RX_STATE (R24, R28). The value 3 "is never held" and is excluded by type (log 17). -/
inductive RxState where
  /-- Not armed. -/
  | idle
  /-- Armed and waiting for the length byte. -/
  | waitLen
  /-- The length byte has arrived and the body is being collected. -/
  | collect
deriving DecidableEq, Repr

/-- STATUS.DEC_ERR (R222). The codes 5 to 7 are never produced and are excluded by type (log 17). -/
inductive DecErr where
  | none
  | transportTimeout
  | frameTooShort
  | lengthMismatch
  | checksumMismatch
deriving DecidableEq, Repr

/-- STATUS.HOST_ERR (R221). -/
inductive HostErr where
  | none
  | illegalOp
  | illegalType
  | payloadTooLong
  | baudOutOfRange
  | busy
  | reservedField
  | badReg
deriving DecidableEq, Repr

/-- One thing that can act on the block at a step (R69, R250). -/
inductive Input where
  /-- A host bus transaction (R93). -/
  | bus (w : BitVec 43)
  /-- An event word (R94): the RX environment's RX_BYTE and RX_TIMEOUT, and a turn of the block's own RX_STEP. -/
  | event (w : BitVec 10)
  /-- The reset input (R250). -/
  | reset
deriving DecidableEq, Repr

/-- A byte buffer: `(index, byte)` cells in rising order, none holding 0x00. An index not listed reads 0x00, the
spec's reset contents of every entry (R45-R47, R50; log 12). -/
abbrev Memory := List Host.Cell

/-- The state of the block (R20), and the model's own two fields `pending` and `busReadData`. -/
structure State where
  /-- ARG_ADDR (R33). -/
  argAddr : Word
  /-- ARG_LEN (R34). -/
  argLen : BitVec 16
  /-- ARG_BAUD (R35). -/
  argBaud : Word
  /-- ARG_FTYPE (R36). -/
  argFtype : Byte
  /-- ARG_JUMP (R37). -/
  argJump : Word
  /-- PBUF_LEN (R38). -/
  pbufLen : Byte
  /-- PBUF (R45), indexed from 0. -/
  pbuf : Memory
  /-- STATUS.RX_STATE (R24, R28). -/
  rxState : RxState
  /-- STATUS.RSP_DONE (R24). -/
  rspDone : Bool
  /-- STATUS.RSP_VALID (R24). -/
  rspValid : Bool
  /-- STATUS.STATUS_VALID (R24). -/
  statusValid : Bool
  /-- STATUS.CHIP_ID_VALID (R24). -/
  chipIdValid : Bool
  /-- STATUS.FLASH_ID_VALID (R24). -/
  flashIdValid : Bool
  /-- STATUS.DEC_ERR (R24, R222). -/
  decErr : DecErr
  /-- STATUS.HOST_ERR (R24, R221). -/
  hostErr : HostErr
  /-- STATUS.RX_OVERRUN (R24, R235). -/
  rxOverrun : Bool
  /-- RSP_LENGTH (R39). -/
  rspLength : Byte
  /-- RSP_TYPE (R40). -/
  rspType : Byte
  /-- RSP_STATUS (R40). -/
  rspStatus : Byte
  /-- RSP_DATA_LEN (R40). -/
  rspDataLen : Byte
  /-- RSP_CHECKSUM (R41). -/
  rspChecksum : Byte
  /-- RSP_CALC_CHECKSUM (R41). -/
  rspCalcChecksum : Byte
  /-- RSP_KIND (R42). -/
  rspKind : Kind
  /-- CHIP_ID (R42). -/
  chipId : Word
  /-- FLASH_ID (R42). -/
  flashId : BitVec 16
  /-- RX_COUNT (R43). -/
  rxCount : Byte
  /-- RXQ_COUNT (R43). -/
  rxqCount : Word
  /-- TX_LAST_LEN (R44). -/
  txLastLen : BitVec 9
  /-- TX_LAST_CSUM (R44). -/
  txLastCsum : Byte
  /-- RXBUF (R46), indexed from 0. -/
  rxbuf : Memory
  /-- RSP_DATA (R47), indexed from 0. -/
  rspData : Memory
  /-- RXQ (R48), oldest byte first. -/
  rxq : List Byte
  /-- TXS (R49), first byte first. -/
  txs : List Byte
  /-- The model's own: the value the last REG_READ returned to the host (R93, R200; log 5). -/
  busReadData : Word
  /-- The model's own: the inputs still to come, the next one first (R69; log 1). -/
  pending : List Input
deriving DecidableEq, Repr

/-- Reasons a step stops with a fault. There is none: an error of the block "never transfers control, saves state or
changes mode" (R220) and every word and register number has a defined effect (log 14). Safe: no behaviour is cut off. -/
inductive Fault : Type
deriving DecidableEq, Repr

/-- Reasons a step is refused. -/
inductive Refusal where
  /-- Raised by an arm of `exec` whose instruction has no meaning yet; no arm is one. Safe: the machine stops. -/
  | notModelled (mnemonic : String)
deriving DecidableEq, Repr

/-- The state after reset (R50, R250): every register 0, every buffer entry 0x00, RX_STATE = IDLE, RXQ and TXS empty.
The model's own fields: nothing pending (log 2), nothing read (log 5). -/
def State.reset : State where
  argAddr := 0
  argLen := 0
  argBaud := 0
  argFtype := 0
  argJump := 0
  pbufLen := 0
  pbuf := []
  rxState := .idle
  rspDone := false
  rspValid := false
  statusValid := false
  chipIdValid := false
  flashIdValid := false
  decErr := .none
  hostErr := .none
  rxOverrun := false
  rspLength := 0
  rspType := 0
  rspStatus := 0
  rspDataLen := 0
  rspChecksum := 0
  rspCalcChecksum := 0
  rspKind := .generic
  chipId := 0
  flashId := 0
  rxCount := 0
  rxqCount := 0
  txLastLen := 0
  txLastCsum := 0
  rxbuf := []
  rspData := []
  rxq := []
  txs := []
  busReadData := 0
  pending := []

end Sys2Proof.Machine
end

