-- ==== Sys2Proof/Machine/Buffer.lean ====
section
/-! DEFINITION. The byte buffers PBUF, RXBUF and RSP_DATA as the block's MemRead and MemWrite (R12, R45-R47). -/

namespace Sys2Proof.Machine

/-- Entry `i` of a buffer (R12). An entry that is not listed reads 0x00 (R45-R47, R50; log 12). -/
def Memory.read : Memory → Nat → Byte
  | [], _ => 0#8
  | (a, b) :: m, i => if i = a then b else Memory.read m i

/-- `BUF[i] <- b` (R12), keeping the canonical form: rising indices, no listed 0x00. -/
def Memory.write : Memory → Nat → Byte → Memory
  | [], i, b => if b = 0#8 then [] else [(i, b)]
  | (a, c) :: m, i, b =>
    if i < a then (if b = 0#8 then (a, c) :: m else (i, b) :: (a, c) :: m)
    else if i = a then (if b = 0#8 then m else (i, b) :: m)
    else (a, c) :: Memory.write m i b

/-- Writes a byte sequence at entries `i`, `i + 1`, … -/
def Memory.writeFrom : Memory → Nat → List Byte → Memory
  | m, _, [] => m
  | m, i, b :: bs => Memory.writeFrom (Memory.write m i b) (i + 1) bs

/-- The `n` entries from `i` on, as a byte sequence: `BUF[i..i+n]` in the notation of R11. -/
def Memory.slice (m : Memory) (i n : Nat) : List Byte := (List.range n).map fun k => Memory.read m (i + k)

/-- The cells rise from index `lo` on and none holds 0x00. -/
def Memory.wfFrom : Nat → Memory → Bool
  | _, [] => true
  | lo, (a, b) :: m => decide (lo ≤ a) && decide (b ≠ 0#8) && Memory.wfFrom (a + 1) m

/-- The canonical form of a buffer (log 12). -/
def Memory.wf (m : Memory) : Bool := Memory.wfFrom 0 m

/-- Every cell lies below entry `n`, the buffer's size (R45-R47). -/
def Memory.below (n : Nat) (m : Memory) : Bool := m.all fun c => decide (c.1 < n)

end Sys2Proof.Machine
end

