-- ==== Sys2Proof/Machine/Operands.lean ====
section
/-! DEFINITION. The operand forms: byte orders of the wire fields (R11, R61), the payload of each builder (R84), the baud
divisor (R178, R179), and the payload of a received frame. -/

namespace Sys2Proof.Machine

/-- `LE16` (R11). -/
def le16 (v : BitVec 16) : List Byte := [v.extractLsb' 0 8, v.extractLsb' 8 8]

/-- `LE32` (R11). -/
def le32 (v : Word) : List Byte :=
  [v.extractLsb' 0 8, v.extractLsb' 8 8, v.extractLsb' 16 8, v.extractLsb' 24 8]

/-- `BE16` (R11). -/
def be16 (v : BitVec 16) : List Byte := [v.extractLsb' 8 8, v.extractLsb' 0 8]

/-- `BE32` (R11). -/
def be32 (v : Word) : List Byte :=
  [v.extractLsb' 24 8, v.extractLsb' 16 8, v.extractLsb' 8 8, v.extractLsb' 0 8]

/-- `BE32val` of the four bytes `b0 b1 b2 b3` (R11): `b0` is the most significant. -/
def be32val (b0 b1 b2 b3 : Byte) : Word := b0 ++ b1 ++ b2 ++ b3

/-- `PBUF[0..PBUF_LEN]` (R45): the bytes FLASH_WRITE and ENCODE_RAW take. -/
def pbufBytes (s : State) : List Byte := s.pbuf.slice 0 s.pbufLen.toNat

/-- The payload of FLASH_WRITE (R173): the address, little-endian, then the data bytes. -/
def flashWritePayload (s : State) : List Byte := le32 s.argAddr ++ pbufBytes s

/-- The payload of FLASH_READ (R174) and, "same layout as flash read", of RAM_READ (R175). -/
def readPayload (s : State) : List Byte := le32 s.argAddr ++ le16 s.argLen

/-- The payload of SELECT_FLASH_TYPE (R181): the flash type, then the jump, little-endian. -/
def selectFlashTypePayload (s : State) : List Byte := s.argFtype :: le32 s.argJump

/-- `BaudDiv(b)` (R178): 1,000,000 / b rounded to the nearest integer, an exact tie to the even one. Defined by the
spec for `b ≥ 1` only; `baudDivisor` asks for it nowhere else. -/
def baudDiv (b : Nat) : Nat :=
  let q := Config.baudNumerator / b
  let r := Config.baudNumerator % b
  if b < 2 * r then q + 1
  else if 2 * r < b then q
  else q + q % 2

/-- The divisor byte of a target baud, `none` where R179 and R180 refuse it: `b = 0` or a divisor outside 1..255. -/
def baudDivisor (b : Word) : Option Byte :=
  if b = 0#32 then none
  else
    let d := baudDiv b.toNat
    if d < 1 ∨ 255 < d then none else some (BitVec.ofNat 8 d)

/-- The payload of the frame body held in RXBUF (R80, R116): the `RSP_LENGTH - 2` bytes after the type byte. -/
def receivedPayload (s : State) : List Byte := s.rxbuf.slice 1 (s.rspLength.toNat - 2)

end Sys2Proof.Machine
end

