-- ==== Sys2Proof/Machine/Codec.lean ====
section
/-! DEFINITION. The pure frame codec: checksum (R110), Encode (R112), Decode (R116). -/

namespace Sys2Proof.Machine

/-- `XOR(s)` (R11): 0x00 for the empty sequence. -/
def xorBytes (bs : List Byte) : Byte := bs.foldl (· ^^^ ·) 0

/-- `Csum(t, p)` (R110): the XOR of type and length, two bytes each and big-endian, and the payload. -/
def csum (t : Byte) (p : List Byte) : Byte :=
  xorBytes ([0, t] ++ be16 (BitVec.ofNat 16 (p.length + 2)) ++ p)

/-- `Encode(t, p)` (R112). Undefined in the spec for more than 253 payload bytes; every operation that emits a frame
checks the length first, so that case never runs (log 10). -/
def encodeFrame (t : Byte) (p : List Byte) : List Byte :=
  [BitVec.ofNat 8 (p.length + 2), t] ++ p ++ [csum t p]

/-- What Decode returns (R116). -/
inductive DecodeResult where
  | frameTooShort
  | lengthMismatch
  /-- Type, received checksum, computed checksum. -/
  | checksumMismatch (t c comp : Byte)
  /-- `Decoded`: type, payload, received checksum, computed checksum. -/
  | decoded (t : Byte) (payload : List Byte) (c comp : Byte)
deriving DecidableEq, Repr

/-- `Decode(L, raw)` (R116), its checks in the order of R117; `verify` is VERIFY_RX_CHECKSUM (R118). -/
def decodeFrame (verify : Bool) (len : Byte) (raw : List Byte) : DecodeResult :=
  if len.toNat < 2 then .frameTooShort
  else if raw.length ≠ len.toNat then .lengthMismatch
  else
    let t := raw.getD 0 0
    let p := (raw.drop 1).take (len.toNat - 2)
    let c := raw.getD (len.toNat - 1) 0
    let comp := csum t p
    if comp != c && verify then .checksumMismatch t c comp
    else .decoded t p c comp

end Sys2Proof.Machine
end

