-- ==== Sys2Proof/Decode.lean ====
section
/-! DEFINITION. The decoder of the four encoded objects (R90-R95), the response registry (R150) and the encoder. -/

namespace Sys2Proof

/-- Why a value written to CMD is no operation. -/
inductive CmdReject where
  /-- CMD bits 31:16 not 0, or TYPE not 0 with RECV or CLEAR (R92). -/
  | reservedField
  /-- CMD.OP of 4 or more (R92). -/
  | illegalOp
  /-- SERIALIZE with a TYPE that is none of the 8 command types (R92, R170). -/
  | illegalType
deriving DecidableEq, Repr

/-- Why an encoded object is no operation. -/
inductive Reject where
  /-- A CMD value (R92). -/
  | cmd (r : CmdReject)
  /-- Event KIND 0: no event (R94). -/
  | noEvent
deriving DecidableEq, Repr

/-- The TYPE values of SERIALIZE (R91). -/
def serializeTable : List (Byte × Command) :=
  [(0x07, .flashErase), (0x09, .flashWrite), (0x0B, .flashRead), (0x1F, .ramRead),
   (0x25, .flashId), (0x27, .changeBaud), (0x2C, .selectFlashType), (0x32, .chipId)]

/-- `CMD.TYPE` (R90). -/
def cmdType (v : Word) : Byte := v.extractLsb' 0 8

/-- `CMD.OP` (R90). -/
def cmdOp (v : Word) : Byte := v.extractLsb' 8 8

/-- `CMD[31:16]`, reserved (R90). -/
def cmdReserved (v : Word) : BitVec 16 := v.extractLsb' 16 16

/-- A value written to CMD as an operation (R90, R91), its static checks made in the order of steps 1 to 4 of R226. -/
def decodeCommand (v : Word) : Except CmdReject Command :=
  if cmdReserved v ≠ 0#16 then .error .reservedField
  else if 4 ≤ (cmdOp v).toNat then .error .illegalOp
  else if cmdOp v = 0#8 then
    match serializeTable.lookup (cmdType v) with
    | some c => .ok c
    | none => .error .illegalType
  else if cmdOp v = 1#8 then .ok (.encodeRaw (cmdType v))
  else if cmdType v ≠ 0#8 then .error .reservedField
  else if cmdOp v = 2#8 then .ok .recv
  else .ok .clear

/-- A host bus transaction (R93): W in bit 42, N in 41:32, DATA in 31:0. Every 43-bit word is a legal transaction. -/
def decodeBus (w : BitVec 43) : Instr :=
  if w.getLsbD 42 then .regWrite (w.extractLsb' 32 10) (w.extractLsb' 0 32)
  else .regRead (w.extractLsb' 32 10)

/-- A receiver event word (R94): KIND in 9:8, DATA in 7:0. -/
def decodeEvent (w : BitVec 10) : Except Reject Instr :=
  match (w.extractLsb' 8 2).toNat with
  | 0 => .error .noEvent
  | 1 => .ok (.rxByte (w.extractLsb' 0 8))
  | 2 => .ok .rxTimeout
  | _ => .ok .rxStep

/-- The response registry (R150): a fixed table, no state (R51). Its keys are distinct (R151). -/
def registry : List (Byte × Kind) := [(0x26, .flashId), (0x28, .baudAck), (0x33, .chipId)]

/-- `Kind(t)` (R150, R152): the registered kind of a received type byte, GENERIC where there is none. -/
def responseKind (t : Byte) : Kind := (registry.lookup t).getD .generic

/-- The parse rule a received type byte selects (R95). -/
def decodeResponse (t : Byte) : Instr :=
  match responseKind t with
  | .chipId => .rspChipId
  | .flashId => .rspFlashId
  | .baudAck => .rspBaudAck
  | .generic => .rspGeneric t

/-- The row of the opcode table an encoded object stands for, or the name of what is wrong with it. -/
def decode : CodeWord → Except Reject Instr
  | .cmd v =>
    match decodeCommand v with
    | .ok c => .ok c.toInstr
    | .error r => .error (.cmd r)
  | .bus w => .ok (decodeBus w)
  | .event w => decodeEvent w
  | .response t => .ok (decodeResponse t)

/-- The value whose write to CMD runs an operation (R90, R91). -/
def encodeCommand : Command → Word
  | .flashErase => 0x00000007
  | .flashWrite => 0x00000009
  | .flashRead => 0x0000000B
  | .ramRead => 0x0000001F
  | .flashId => 0x00000025
  | .changeBaud => 0x00000027
  | .selectFlashType => 0x0000002C
  | .chipId => 0x00000032
  | .encodeRaw t => 0x000001#24 ++ t
  | .recv => 0x00000200
  | .clear => 0x00000300

/-- The encoded object of an instruction (R90, R93, R94, R150). Bits the spec ignores (the DATA of REG_READ, RX_TIMEOUT
and RX_STEP) are written 0 (log 13). -/
def encode : Instr → CodeWord
  | .flashErase => .cmd (encodeCommand .flashErase)
  | .flashWrite => .cmd (encodeCommand .flashWrite)
  | .flashRead => .cmd (encodeCommand .flashRead)
  | .ramRead => .cmd (encodeCommand .ramRead)
  | .flashId => .cmd (encodeCommand .flashId)
  | .changeBaud => .cmd (encodeCommand .changeBaud)
  | .selectFlashType => .cmd (encodeCommand .selectFlashType)
  | .chipId => .cmd (encodeCommand .chipId)
  | .encodeRaw t => .cmd (encodeCommand (.encodeRaw t))
  | .recv => .cmd (encodeCommand .recv)
  | .clear => .cmd (encodeCommand .clear)
  | .regRead n => .bus (0#1 ++ n ++ 0#32)
  | .regWrite n v => .bus (1#1 ++ n ++ v)
  | .rxByte b => .event (0b01#2 ++ b)
  | .rxTimeout => .event (0b10#2 ++ 0#8)
  | .rxStep => .event (0b11#2 ++ 0#8)
  | .rspChipId => .response 0x33
  | .rspFlashId => .response 0x26
  | .rspBaudAck => .response 0x28
  | .rspGeneric t => .response t

/-- The object that a table word of `nbits` bits (whole bytes) and value `w` is (log 8): a received type byte (8 bits),
an event word (10 bits, 2 bytes), a CMD value (32 bits) or a bus transaction (43 bits, 6 bytes). A word with a bit above
the format's width is none. -/
def tableWord (nbits w : Nat) : Option CodeWord :=
  if nbits ≤ 8 then (if w < 2 ^ 8 then some (.response (BitVec.ofNat 8 w)) else none)
  else if nbits ≤ 16 then (if w < 2 ^ 10 then some (.event (BitVec.ofNat 10 w)) else none)
  else if nbits ≤ 32 then (if w < 2 ^ 32 then some (.cmd (BitVec.ofNat 32 w)) else none)
  else (if w < 2 ^ 43 then some (.bus (BitVec.ofNat 43 w)) else none)

/-- The instruction the decoder reads from an opcode-table word. -/
def decodeTableWord (nbits w : Nat) : Option Instr :=
  (tableWord nbits w).bind fun c => (decode c).toOption

end Sys2Proof
end

