-- ==== Sys2Proof/Machine/Flags.lean ====
section
/-! DEFINITION. STATUS and its computed fields (R24, R25), the codes of its fields (R24, R221, R222), the code of RSP_KIND
(R42), the saturating RXQ_COUNT (R43) and the RXQ capacity test (R120). -/

namespace Sys2Proof.Machine

/-- RSP_OK, computed and never stored (R25, R155). -/
def rspOk (s : State) : Bool := s.statusValid && decide (s.rspStatus = 0#8)

/-- The codes of RX_STATE (R24). -/
def RxState.code : RxState → BitVec 2
  | .idle => 0
  | .waitLen => 1
  | .collect => 2

/-- The codes of DEC_ERR (R222). -/
def DecErr.code : DecErr → BitVec 3
  | .none => 0
  | .transportTimeout => 1
  | .frameTooShort => 2
  | .lengthMismatch => 3
  | .checksumMismatch => 4

/-- The codes of HOST_ERR (R221). -/
def HostErr.code : HostErr → BitVec 3
  | .none => 0
  | .illegalOp => 1
  | .illegalType => 2
  | .payloadTooLong => 3
  | .baudOutOfRange => 4
  | .busy => 5
  | .reservedField => 6
  | .badReg => 7

/-- The codes of RSP_KIND (R42, R150). -/
def kindCode : Kind → BitVec 2
  | .generic => 0
  | .flashId => 1
  | .baudAck => 2
  | .chipId => 3

/-- The STATUS register as the host reads it (R24): bits 31:16 and 11 are reserved and read 0. -/
def statusWord (s : State) : Word :=
  0#16 ++ BitVec.ofBool s.rxOverrun ++ s.hostErr.code ++ 0#1 ++ s.decErr.code
    ++ BitVec.ofBool s.flashIdValid ++ BitVec.ofBool s.chipIdValid ++ BitVec.ofBool (rspOk s)
    ++ BitVec.ofBool s.statusValid ++ BitVec.ofBool s.rspValid ++ BitVec.ofBool s.rspDone ++ s.rxState.code

/-- `min(n, 0xFFFFFFFF)`: what RXQ_COUNT holds for a queue of `n` bytes (R43, R120, R121). -/
def rxqCountOf (n : Nat) : Word := BitVec.ofNat 32 (min n 0xFFFFFFFF)

/-- `RXQ_DEPTH != unbounded and n == RXQ_DEPTH` (R120), the depth being `256 + e` (R8). -/
def rxqFull (p : Config.Params) (n : Nat) : Bool :=
  decide (256 ≤ n) && decide (p.rxqExtra = some (n - 256))

/-- The HOST_ERR code of a CMD value that is no operation (R92, R221). -/
def rejectCode : CmdReject → HostErr
  | .reservedField => .reservedField
  | .illegalOp => .illegalOp
  | .illegalType => .illegalType

end Sys2Proof.Machine
end

