-- ==== Sys2Proof/Machine/Ops.lean ====
section
/-! DEFINITION. The shared operations: raising a host error (R12, R224), ending a reception (R125-R128), emitting a frame
(R113), clearing the response (R129), and the common parts of the response parser (R152, R154, R156, R157). -/

namespace Sys2Proof.Machine

/-- `raise HostError(code)` (R12): sets HOST_ERR, "and the operation has no other effect" (R224). The block's only
exception of a host operation; nothing is saved and control goes nowhere (R220, R231). -/
def raiseHostError (e : HostErr) (s : State) : State := { s with hostErr := e }

/-- `Emit(t, p)` (R113): the whole frame onto TXS, its length and checksum, HOST_ERR = NONE. -/
def emit (t : Byte) (p : List Byte) (s : State) : State :=
  let f := encodeFrame t p
  { s with
    txs := s.txs ++ f
    txLastLen := BitVec.ofNat 9 f.length
    txLastCsum := f.getD (f.length - 1) 0
    hostErr := .none }

/-- `ClearResponse()` (R129). -/
def clearResponse (s : State) : State :=
  { s with
    rspDone := false
    rspValid := false
    statusValid := false
    chipIdValid := false
    flashIdValid := false
    decErr := .none
    rspLength := 0
    rspType := 0
    rspStatus := 0
    rspDataLen := 0
    rspChecksum := 0
    rspCalcChecksum := 0
    rspKind := .generic
    chipId := 0
    flashId := 0
    rxCount := 0
    rxbuf := []
    rspData := [] }

/-- `RxPop()` (R12) has left the bytes `q` in RXQ; RXQ_COUNT follows (R121). -/
def setRxq (q : List Byte) (s : State) : State := { s with rxq := q, rxqCount := rxqCountOf q.length }

/-- `SplitStatus(p)` (R154): the first payload byte is the status, the rest the data. Without a payload there is no
status byte and no data. -/
def splitStatus (p : List Byte) (s : State) : State :=
  match p with
  | [] => { s with statusValid := false, rspDataLen := 0 }
  | status :: data =>
    { s with
      statusValid := true
      rspStatus := status
      rspDataLen := BitVec.ofNat 8 data.length
      rspData := s.rspData.writeFrom 0 data }

/-- `ParseChipId(data)` (R156): exactly 4 data bytes, big-endian; any other length leaves the field invalid. -/
def parseChipId (data : List Byte) (s : State) : State :=
  match data with
  | [b0, b1, b2, b3] => { s with chipId := be32val b0 b1 b2 b3, chipIdValid := true }
  | _ => s

/-- `ParseFlashId(data)` (R157): exactly 2 data bytes, manufacturer first; any other length leaves the field invalid. -/
def parseFlashId (data : List Byte) (s : State) : State :=
  match data with
  | [manufacturer, device] => { s with flashId := manufacturer ++ device, flashIdValid := true }
  | _ => s

/-- What every response kind does (R152): RSP_KIND and the status and data of R154. -/
def parseCommon (k : Kind) (p : List Byte) (s : State) : State := splitStatus p { s with rspKind := k }

/-- The state changes every ended reception makes (R125, R128): IDLE, RSP_DONE = 1. -/
def endReception (s : State) : State := { s with rxState := .idle, rspDone := true }

/-- `raise DecodeError(code)` (R12): `FrameError` (R127) and `TransportTimeout` (R128) after `endReception`. -/
def raiseDecodeError (e : DecErr) (s : State) : State := { s with rspValid := false, decErr := e }

/-- `TransportTimeout()` (R128). -/
def transportTimeout (s : State) : State := raiseDecodeError .transportTimeout (endReception s)

end Sys2Proof.Machine
end

