-- ==== Sys2Proof/Machine/Response.lean ====
section
/-! DEFINITION. The response parser: the four parse rules (R156-R159) and `Parse`, which selects one (R152). -/

namespace Sys2Proof.Machine

/-- The parse rule of a CHIP_ID response with payload `p` (R152, R156). -/
def parseChipIdResponse (p : List Byte) (s : State) : State := parseChipId p.tail (parseCommon .chipId p s)

/-- The parse rule of a FLASH_ID response with payload `p` (R152, R157). -/
def parseFlashIdResponse (p : List Byte) (s : State) : State := parseFlashId p.tail (parseCommon .flashId p s)

/-- The parse rule of a BAUD_ACK response (R158): the common fields only. -/
def parseBaudAckResponse (p : List Byte) (s : State) : State := parseCommon .baudAck p s

/-- The parse rule of every other response (R159): the common fields only. -/
def parseGenericResponse (p : List Byte) (s : State) : State := parseCommon .generic p s

/-- `Parse(t, p)` (R152): the parse rule of the registered kind of `t`. -/
def parse (t : Byte) (p : List Byte) (s : State) : State :=
  match responseKind t with
  | .chipId => parseChipIdResponse p s
  | .flashId => parseFlashIdResponse p s
  | .baudAck => parseBaudAckResponse p s
  | .generic => parseGenericResponse p s

/-- RSP_CHIP_ID (R156), on the frame body that RXBUF holds (log 7). -/
def execRspChipId (s : State) : Host.Outcome State Fault Refusal :=
  .next (parseChipIdResponse (receivedPayload s) s)

/-- RSP_FLASH_ID (R157), on the frame body that RXBUF holds (log 7). -/
def execRspFlashId (s : State) : Host.Outcome State Fault Refusal :=
  .next (parseFlashIdResponse (receivedPayload s) s)

/-- RSP_BAUD_ACK (R158), on the frame body that RXBUF holds (log 7). -/
def execRspBaudAck (s : State) : Host.Outcome State Fault Refusal :=
  .next (parseBaudAckResponse (receivedPayload s) s)

/-- RSP_GENERIC (R159), on the frame body that RXBUF holds (log 7). The type byte selects the rule and is no operand of
it. -/
def execRspGeneric (_t : Byte) (s : State) : Host.Outcome State Fault Refusal :=
  .next (parseGenericResponse (receivedPayload s) s)

end Sys2Proof.Machine
end

