-- ==== Sys2Proof/Machine/Receiver.lean ====
section
/-! DEFINITION. The frame codec's own operations: ENCODE_RAW (R115), RECV (R129), CLEAR (R130), and the receiver with its
events RX_BYTE (R120), RX_STEP (R121-R123) and RX_TIMEOUT (R124). -/

namespace Sys2Proof.Machine

/-- ENCODE_RAW (R115): refused when PBUF_LEN > 253. -/
def execEncodeRaw (t : Byte) (s : State) : Host.Outcome State Fault Refusal :=
  if Config.maxPayload < s.pbufLen.toNat then .next (raiseHostError .payloadTooLong s)
  else .next (emit t (pbufBytes s) s)

/-- RECV (R129): refused with BUSY unless the receiver is IDLE (R226 step 5). RXQ is not flushed. -/
def execRecv (s : State) : Host.Outcome State Fault Refusal :=
  if s.rxState ≠ .idle then .next (raiseHostError .busy s)
  else .next { clearResponse s with rxState := .waitLen, hostErr := .none }

/-- CLEAR (R130): legal in every RX_STATE. -/
def execClear (s : State) : Host.Outcome State Fault Refusal :=
  .next { setRxq [] (clearResponse s) with rxState := .idle, rxOverrun := false, hostErr := .none }

/-- `FrameOk(d)` (R126). -/
def frameOk (t : Byte) (p : List Byte) (c comp : Byte) (s : State) : State :=
  parse t p
    { s with rspValid := true, decErr := .none, rspType := t, rspChecksum := c, rspCalcChecksum := comp }

/-- `FinishFrame()` (R125): Decode what was collected, then `FrameOk` (R126) or `FrameError` (R127). -/
def finishFrame (p : Config.Params) (s : State) : State :=
  match decodeFrame p.verifyRxChecksum s.rspLength (s.rxbuf.slice 0 s.rxCount.toNat) with
  | .decoded t payload c comp => frameOk t payload c comp (endReception s)
  | .frameTooShort => raiseDecodeError .frameTooShort (endReception s)
  | .lengthMismatch => raiseDecodeError .lengthMismatch (endReception s)
  | .checksumMismatch t c comp =>
    { raiseDecodeError .checksumMismatch (endReception s) with
      rspType := t, rspChecksum := c, rspCalcChecksum := comp }

/-- RX_STEP in WAIT_LEN, `b` popped (R122). -/
def takeLength (p : Config.Params) (b : Byte) (s : State) : State :=
  if b = 0#8 then finishFrame p { s with rspLength := b, rxCount := 0 }
  else { s with rspLength := b, rxCount := 0, rxState := .collect }

/-- RX_STEP in COLLECT, `b` popped (R123). -/
def takeBody (p : Config.Params) (b : Byte) (s : State) : State :=
  if s.rxCount + 1#8 = s.rspLength then
    finishFrame p { s with rxbuf := s.rxbuf.write s.rxCount.toNat b, rxCount := s.rxCount + 1#8 }
  else { s with rxbuf := s.rxbuf.write s.rxCount.toNat b, rxCount := s.rxCount + 1#8 }

/-- Whether RX_STEP is enabled (R121). -/
def rxStepEnabled (s : State) : Bool := decide (s.rxState ≠ .idle) && !s.rxq.isEmpty

/-- The receiver's internal step (R121-R123). A turn it cannot take, because it is not enabled, passes (log 3). -/
def receiverStep (p : Config.Params) (s : State) : State :=
  match s.rxq with
  | [] => s
  | b :: q =>
    match s.rxState with
    | .idle => s
    | .waitLen => takeLength p b (setRxq q s)
    | .collect => takeBody p b (setRxq q s)

/-- A byte delivered by the UART receiver (R120): appended, or dropped with RX_OVERRUN = 1 when RXQ is full. -/
def deliverByte (p : Config.Params) (b : Byte) (s : State) : State :=
  if rxqFull p s.rxq.length then { s with rxOverrun := true, rxqCount := rxqCountOf s.rxq.length }
  else setRxq (s.rxq ++ [b]) s

/-- The transport's read timeout (R124): no effect while IDLE or while a byte is waiting. -/
def readTimeout (p : Config.Params) (s : State) : State :=
  if s.rxState = .idle ∨ s.rxq ≠ [] then s
  else if s.rxState = .waitLen then transportTimeout s
  else finishFrame p s

/-- RX_BYTE (R120). -/
def execRxByte (b : Byte) (s : State) : Host.Outcome State Fault Refusal := .next (deliverByte Config.params b s)

/-- RX_TIMEOUT (R124). -/
def execRxTimeout (s : State) : Host.Outcome State Fault Refusal := .next (readTimeout Config.params s)

/-- RX_STEP (R121). -/
def execRxStep (s : State) : Host.Outcome State Fault Refusal := .next (receiverStep Config.params s)

end Sys2Proof.Machine
end

