-- ==== Sys2Proof/Machine/Serializer.lean ====
section
/-! DEFINITION. The command serializer: the 8 builders (R170-R182). -/

namespace Sys2Proof.Machine

/-- FLASH_ERASE (R172): no payload. -/
def execFlashErase (s : State) : Host.Outcome State Fault Refusal := .next (emit 0x07 [] s)

/-- FLASH_WRITE (R173): refused when PBUF_LEN > 249. -/
def execFlashWrite (s : State) : Host.Outcome State Fault Refusal :=
  if Config.maxWriteData < s.pbufLen.toNat then .next (raiseHostError .payloadTooLong s)
  else .next (emit 0x09 (flashWritePayload s) s)

/-- FLASH_READ (R174). -/
def execFlashRead (s : State) : Host.Outcome State Fault Refusal := .next (emit 0x0B (readPayload s) s)

/-- RAM_READ (R175). -/
def execRamRead (s : State) : Host.Outcome State Fault Refusal := .next (emit 0x1F (readPayload s) s)

/-- FLASH_ID (R177): no payload. -/
def execFlashId (s : State) : Host.Outcome State Fault Refusal := .next (emit 0x25 [] s)

/-- CHANGE_BAUD (R180): refused where the target baud has no divisor in 1..255 (R179). -/
def execChangeBaud (s : State) : Host.Outcome State Fault Refusal :=
  match baudDivisor s.argBaud with
  | some d => .next (emit 0x27 [d] s)
  | none => .next (raiseHostError .baudOutOfRange s)

/-- SELECT_FLASH_TYPE (R181). -/
def execSelectFlashType (s : State) : Host.Outcome State Fault Refusal :=
  .next (emit 0x2C (selectFlashTypePayload s) s)

/-- CHIP_ID (R182): no payload. -/
def execChipId (s : State) : Host.Outcome State Fault Refusal := .next (emit 0x32 [] s)

end Sys2Proof.Machine
end

