-- ==== Sys2Proof/Machine/HostAccess.lean ====
section
/-! DEFINITION. The host's register access: the register map (R22), REG_READ (R200), REG_WRITE (R201) and `RunCommand`
(R205). -/

namespace Sys2Proof.Machine

/-- The value of the whole register `k` of R22, zero-extended. CMD, number 0, reads 0 (R23); a number above 0x014 names no
whole register. -/
def scalarReg (s : State) (k : Nat) : Word :=
  match k with
  | 0x000 => 0
  | 0x001 => statusWord s
  | 0x002 => s.argAddr
  | 0x003 => s.argLen.setWidth 32
  | 0x004 => s.argBaud
  | 0x005 => s.argFtype.setWidth 32
  | 0x006 => s.argJump
  | 0x007 => s.pbufLen.setWidth 32
  | 0x008 => s.rspLength.setWidth 32
  | 0x009 => s.rspType.setWidth 32
  | 0x00A => s.rspStatus.setWidth 32
  | 0x00B => s.rspDataLen.setWidth 32
  | 0x00C => s.rspChecksum.setWidth 32
  | 0x00D => s.rspCalcChecksum.setWidth 32
  | 0x00E => (kindCode s.rspKind).setWidth 32
  | 0x00F => s.chipId
  | 0x010 => s.flashId.setWidth 32
  | 0x011 => s.rxCount.setWidth 32
  | 0x012 => s.rxqCount
  | 0x013 => s.txLastLen.setWidth 32
  | 0x014 => s.txLastCsum.setWidth 32
  | _ => 0

/-- The 32-bit value of register number `n` (R22, R200): a whole register, a buffer byte zero-extended, or 0 for an
undefined number (R203). -/
def regValue (s : State) (n : RegNum) : Word :=
  if n.toNat ≤ 0x014 then scalarReg s n.toNat
  else if 0x100 ≤ n.toNat ∧ n.toNat ≤ 0x1FC then (s.pbuf.read (n.toNat - 0x100)).setWidth 32
  else if 0x200 ≤ n.toNat ∧ n.toNat ≤ 0x2FE then (s.rxbuf.read (n.toNat - 0x200)).setWidth 32
  else if 0x300 ≤ n.toNat ∧ n.toNat ≤ 0x3FB then (s.rspData.read (n.toNat - 0x300)).setWidth 32
  else 0

/-- `x[N] <- V[width(N)-1 : 0]` for the whole RW registers (R201), `none` for every other number up to 0x014 (R202). CMD is
no storage and is not among them. -/
def storeScalar (k : Nat) (v : Word) (s : State) : Option State :=
  match k with
  | 0x002 => some { s with argAddr := v }
  | 0x003 => some { s with argLen := v.setWidth 16 }
  | 0x004 => some { s with argBaud := v }
  | 0x005 => some { s with argFtype := v.setWidth 8 }
  | 0x006 => some { s with argJump := v }
  | 0x007 => some { s with pbufLen := v.setWidth 8 }
  | _ => none

/-- `x[N] <- V[width(N)-1 : 0]` for an RW register or PBUF byte (R201), `none` for every other register number (R202). -/
def storeReg (n : RegNum) (v : Word) (s : State) : Option State :=
  if n.toNat ≤ 0x007 then storeScalar n.toNat v s
  else if 0x100 ≤ n.toNat ∧ n.toNat ≤ 0x1FC then
    some { s with pbuf := s.pbuf.write (n.toNat - 0x100) (v.setWidth 8) }
  else none

/-- The dispatch of `RunCommand` (R205) to a decoded operation. -/
def runDecoded (c : Command) (s : State) : Host.Outcome State Fault Refusal :=
  match c with
  | .flashErase => execFlashErase s
  | .flashWrite => execFlashWrite s
  | .flashRead => execFlashRead s
  | .ramRead => execRamRead s
  | .flashId => execFlashId s
  | .changeBaud => execChangeBaud s
  | .selectFlashType => execSelectFlashType s
  | .chipId => execChipId s
  | .encodeRaw t => execEncodeRaw t s
  | .recv => execRecv s
  | .clear => execClear s

/-- `RunCommand(V)` (R205): the static checks of R226 in order, then the operation, which makes its own checks (steps 5
and 6). -/
def runCommand (v : Word) (s : State) : Host.Outcome State Fault Refusal :=
  match decodeCommand v with
  | .ok c => runDecoded c s
  | .error e => .next (raiseHostError (rejectCode e) s)

/-- REG_READ (R200): the value goes to the host, no state of the block changes (R203, R204; log 5). -/
def execRegRead (n : RegNum) (s : State) : Host.Outcome State Fault Refusal :=
  .next { s with busReadData := regValue s n }

/-- REG_WRITE (R201): CMD runs a command, an RW register stores, anything else is refused with BAD_REG (R202). -/
def execRegWrite (n : RegNum) (v : Word) (s : State) : Host.Outcome State Fault Refusal :=
  if n = 0#10 then runCommand v s
  else
    match storeReg n v s with
    | some t => .next t
    | none => .next (raiseHostError .badReg s)

end Sys2Proof.Machine
end

