-- ==== Sys2Proof/Machine/Dispatch.lean ====
section
/-! DEFINITION. One arm per row of the opcode table. -/

namespace Sys2Proof.Machine

/-- The meaning of each operation. -/
def exec (i : Instr) (s : State) : Host.Outcome State Fault Refusal :=
  match i with
  | .flashErase => Sys2Proof.Machine.execFlashErase s
  | .flashWrite => Sys2Proof.Machine.execFlashWrite s
  | .flashRead => Sys2Proof.Machine.execFlashRead s
  | .ramRead => Sys2Proof.Machine.execRamRead s
  | .flashId => Sys2Proof.Machine.execFlashId s
  | .changeBaud => Sys2Proof.Machine.execChangeBaud s
  | .selectFlashType => Sys2Proof.Machine.execSelectFlashType s
  | .chipId => Sys2Proof.Machine.execChipId s
  | .encodeRaw t => Sys2Proof.Machine.execEncodeRaw t s
  | .recv => Sys2Proof.Machine.execRecv s
  | .clear => Sys2Proof.Machine.execClear s
  | .regRead n => Sys2Proof.Machine.execRegRead n s
  | .regWrite n v => Sys2Proof.Machine.execRegWrite n v s
  | .rxByte b => Sys2Proof.Machine.execRxByte b s
  | .rxTimeout => Sys2Proof.Machine.execRxTimeout s
  | .rxStep => Sys2Proof.Machine.execRxStep s
  | .rspChipId => Sys2Proof.Machine.execRspChipId s
  | .rspFlashId => Sys2Proof.Machine.execRspFlashId s
  | .rspBaudAck => Sys2Proof.Machine.execRspBaudAck s
  | .rspGeneric t => Sys2Proof.Machine.execRspGeneric t s

end Sys2Proof.Machine
end

