-- ==== Sys2Proof/Machine/Fetch.lean ====
section
/-! DEFINITION. Which agent acts next (R69): the next pending input, the receive sequencer, or nobody; the reset input
(R250); and how a table word is put where it acts next. -/

namespace Sys2Proof.Machine

/-- What the next step is. -/
inductive Fetched where
  /-- The step runs `i` on `s`. -/
  | run (i : Instr) (s : State)
  /-- The step runs no operation and leaves `s`: a reset, an event of KIND 0, or nobody acts. -/
  | settled (s : State)

/-- Reset (R250): every piece of the block's state at its reset value. The inputs still to come are no state of the
block and stay (log 9). -/
def resetBlock (s : State) : State := { State.reset with pending := s.pending }

/-- The next step. With inputs pending, the first one acts (log 1); an event word of KIND 0 has no effect (R94). With
none pending, an enabled RX_STEP is taken, as its weak fairness asks (R121), and otherwise nobody acts (log 4). -/
def fetch (s : State) : Fetched :=
  match s.pending with
  | [] => if rxStepEnabled s then .run .rxStep s else .settled s
  | .bus w :: rest => .run (decodeBus w) { s with pending := rest }
  | .event w :: rest =>
    match decodeEvent w with
    | .ok i => .run i { s with pending := rest }
    | .error _ => .settled { s with pending := rest }
  | .reset :: rest => .settled (resetBlock { s with pending := rest })

/-- `i` becomes the next input. -/
def pushInput (i : Input) (s : State) : State := { s with pending := i :: s.pending }

/-- Puts the receiver where its next RX_STEP ends a well-formed frame of type `t` with no payload (`02 t csum`), so that
this step runs the parse rule of `t` (R95, R126; log 8). -/
def armForResponse (t : Byte) (s : State) : State :=
  pushInput (.event (0b11#2 ++ 0#8))
    { setRxq (csum t [] :: s.rxq) (clearResponse s) with
      rxState := .collect
      rspLength := 2
      rxCount := 1
      rxbuf := Memory.write [] 0 t }

/-- Puts an encoded object where the next step takes it (log 8). A CMD value is what a bus write to register 0x000
carries (R90). -/
def placeCode (c : CodeWord) (s : State) : State :=
  match c with
  | .cmd v => pushInput (.bus (1#1 ++ 0#10 ++ v)) s
  | .bus w => pushInput (.bus w) s
  | .event w => pushInput (.event w) s
  | .response t => armForResponse t s

/-- Puts a table word where the next step takes it; a word of no format changes nothing. -/
def placeTableWord (nbits w : Nat) (s : State) : State :=
  match tableWord nbits w with
  | some c => placeCode c s
  | none => s

end Sys2Proof.Machine
end

