-- ==== Sys2Proof/Machine/Step.lean ====
section
/-! DEFINITION. One atomic step of the block (R7, R69), and the placing of a table word for the next step. -/

namespace Sys2Proof.Machine

/-- One step: the next agent's operation runs on the state with its input taken. -/
def step (s : State) : Host.Outcome State Fault Refusal :=
  match fetch s with
  | .run i t => exec i t
  | .settled t => .next t

/-- `s` with a table word placed so that the next step runs it (log 8). -/
def State.withFetchWord (s : State) (nbits w : Nat) : State := placeTableWord nbits w s

end Sys2Proof.Machine
end

