-- ==== Sys2Proof/Safety.lean ====
section
/-! DEFINITION. What holds of a block that runs as the spec says: the invariants of R24-R32, R42-R49 and R253, and the well-framed
output stream of R70 and R80. Statements use these names. -/

namespace Sys2Proof.Machine

/-- The three buffers are in canonical form (log 12). -/
def BuffersCanonical (s : State) : Prop :=
  s.pbuf.wf = true ∧ s.rxbuf.wf = true ∧ s.rspData.wf = true

/-- No buffer holds a byte beyond its size: 253, 255 and 252 entries (R45, R46, R47). -/
def BuffersInRange (s : State) : Prop :=
  s.pbuf.below Config.maxPayload = true ∧ s.rxbuf.below Config.maxLen = true ∧ s.rspData.below Config.maxData = true

/-- Every response register and flag holds the value RECV gave it, but for RSP_LENGTH, RX_COUNT, RXBUF (the diagnostics a
reception builds up) and RSP_TYPE with the two checksums (which a checksum mismatch writes) (R127, R129, R253). -/
def ResponseCleared (s : State) : Prop :=
  s.statusValid = false ∧ s.chipIdValid = false ∧ s.flashIdValid = false ∧ s.rspStatus = 0 ∧ s.rspDataLen = 0
    ∧ s.rspKind = .generic ∧ s.chipId = 0 ∧ s.flashId = 0 ∧ s.rspData = []

/-- The invariant of the receiver and the response registers. -/
structure ReceiverInv (s : State) : Prop where
  /-- R26: a response is reported only at the end of a reception, and without a decode error. -/
  valid_done : s.rspValid = true → s.rspDone = true ∧ s.decErr = .none
  /-- R26: a decode error is reported only at the end of a reception, and without a response. -/
  error_done : s.decErr ≠ .none → s.rspDone = true ∧ s.rspValid = false
  /-- R27 and R253: without a response, every response register and flag is clear. -/
  cleared : s.rspValid = false → ResponseCleared s
  /-- R127 and R253: type and checksums are clear unless there is a response or a checksum mismatch. -/
  type_cleared : s.rspValid = false → s.decErr ≠ .checksumMismatch →
    s.rspType = 0 ∧ s.rspChecksum = 0 ∧ s.rspCalcChecksum = 0
  /-- R222: CHECKSUM_MISMATCH only with VERIFY_RX_CHECKSUM. -/
  mismatch_verified : s.decErr = .checksumMismatch → Config.params.verifyRxChecksum = true
  /-- R28: an armed receiver has not ended its reception. -/
  armed_running : s.rxState ≠ .idle → s.rspDone = false
  /-- R122, R129: no length byte and no body byte while waiting for the length. -/
  waiting : s.rxState = .waitLen → s.rspLength = 0 ∧ s.rxCount = 0
  /-- R28: while collecting, fewer body bytes than the length byte declares. -/
  collecting : s.rxState = .collect → 1 ≤ s.rspLength.toNat ∧ s.rxCount.toNat < s.rspLength.toNat
  /-- R43, R46: only the collected body bytes are in RXBUF. -/
  rxbuf_zero : ∀ i, s.rxCount.toNat ≤ i → s.rxbuf.read i = 0
  /-- R47: only the response data are in RSP_DATA, at most 252 bytes (R40). -/
  rspData_zero : ∀ i, s.rspDataLen.toNat ≤ i → s.rspData.read i = 0
  rspDataLen_le : s.rspDataLen.toNat ≤ Config.maxData
  /-- R29 and R42: a chip identifier only with its kind, and 0 while invalid. -/
  chip_kind : s.chipIdValid = true → s.rspKind = .chipId
  chip_zero : s.chipIdValid = false → s.chipId = 0
  /-- R29 and R42: a flash identifier only with its kind, and 0 while invalid. -/
  flash_kind : s.flashIdValid = true → s.rspKind = .flashId
  flash_zero : s.flashIdValid = false → s.flashId = 0
  /-- R43: RXQ_COUNT is the length of RXQ, saturated. -/
  rxq_count : s.rxqCount.toNat = min s.rxq.length 0xFFFFFFFF
  /-- R48: RXQ holds at most RXQ_DEPTH bytes. -/
  rxq_depth : ∀ d, Config.params.rxqDepth = some d → s.rxq.length ≤ d
  /-- R120, R235: nothing is ever dropped from an unbounded RXQ. -/
  overrun_bounded : s.rxOverrun = true → Config.params.rxqDepth ≠ none

/-- The invariant every step keeps. -/
def Inv (s : State) : Prop := BuffersCanonical s ∧ BuffersInRange s ∧ ReceiverInv s

/-- The bytes of a list of frames, one after the other; a frame is a type and a payload. -/
def framesBytes (fs : List (Byte × List Byte)) : List Byte := (fs.map fun f => encodeFrame f.1 f.2).flatten

/-- TXS is a sequence of whole frames that Encode defines, none interleaved with another (R70, R81, R112), and TX_LAST_LEN
and TX_LAST_CSUM describe the last of them, or are 0 before any (R44). -/
def TxsFramed (s : State) : Prop :=
  ∃ fs : List (Byte × List Byte), (∀ f ∈ fs, f.2.length ≤ Config.maxPayload) ∧ s.txs = framesBytes fs ∧
    match fs.getLast? with
    | none => s.txLastLen = 0 ∧ s.txLastCsum = 0
    | some f => s.txLastLen.toNat = f.2.length + 3 ∧ s.txLastCsum = csum f.1 f.2

/-- What the host's operand registers, the transmit side and the model's own fields hold, side by side in two states. -/
def SameHostSide (s t : State) : Prop :=
  t.argAddr = s.argAddr ∧ t.argLen = s.argLen ∧ t.argBaud = s.argBaud ∧ t.argFtype = s.argFtype ∧ t.argJump = s.argJump
    ∧ t.pbufLen = s.pbufLen ∧ t.pbuf = s.pbuf ∧ t.hostErr = s.hostErr ∧ t.txs = s.txs ∧ t.txLastLen = s.txLastLen
    ∧ t.txLastCsum = s.txLastCsum ∧ t.busReadData = s.busReadData ∧ t.pending = s.pending

/-- What every parse rule does with the frame body in RXBUF (R152, R154), `t` being `s` after it: RSP_KIND; the status byte
and its flag when the payload is not empty; the data bytes into RSP_DATA and their number into RSP_DATA_LEN. `chip` and
`flash` say what CHIP_ID and FLASH_ID with their flags become; nothing else changes. -/
def ParsedAs (k : Kind) (chip : Word × Bool) (flash : BitVec 16 × Bool) (s t : State) : Prop :=
  t = { s with
        rspKind := k
        statusValid := decide (3 ≤ s.rspLength.toNat)
        rspStatus := if 3 ≤ s.rspLength.toNat then s.rxbuf.read 1 else s.rspStatus
        rspDataLen := BitVec.ofNat 8 (s.rspLength.toNat - 3)
        chipId := chip.1
        chipIdValid := chip.2
        flashId := flash.1
        flashIdValid := flash.2
        rspData := t.rspData } ∧
  ∀ i, t.rspData.read i = if i < s.rspLength.toNat - 3 then s.rxbuf.read (2 + i) else s.rspData.read i

end Sys2Proof.Machine
end

