-- ==== Sys2Proof/WellFormed.lean ====
section
/-! DEFINITION. Which terms of `Instr` are instructions. The operands' types already bound every field, so one check is left. -/

namespace Sys2Proof

/-- An instruction is well formed when its encoding stands for it. Only the generic parse rule carries an operand that
may be illegal: it applies "only when no other response row matches" (R95), so its type byte is no registered key. -/
def Instr.wellFormed : Instr → Bool
  | .rspGeneric t => decide (responseKind t = .generic)
  | .flashErase | .flashWrite | .flashRead | .ramRead | .flashId | .changeBaud | .selectFlashType | .chipId => true
  | .encodeRaw _ | .recv | .clear | .regRead _ | .regWrite _ _ => true
  | .rxByte _ | .rxTimeout | .rxStep | .rspChipId | .rspFlashId | .rspBaudAck => true

end Sys2Proof
end

