-- ==== Sys2Proof/Certificates/Slice0/Obligations.lean ====
section
/-! DEFINITION. The statements for the provers, one `def Obligations.<Name> : Prop` each. A result is stated as the whole next
state, so its frame (everything else unchanged) is part of it. -/

open Sys2Proof Sys2Proof.Machine

/-! ## Reset, decoding and the step -/

/-- R50: after reset every register reads 0 (STATUS, every buffer byte and every flag among them), the receiver is IDLE,
RXQ and TXS are empty. -/
def Obligations.ResetStateIsAllZero : Prop :=
  (∀ n : RegNum, regValue State.reset n = 0) ∧ State.reset.rxState = .idle ∧ statusWord State.reset = 0 ∧
    (∀ i, Memory.read State.reset.pbuf i = 0 ∧ Memory.read State.reset.rxbuf i = 0 ∧
      Memory.read State.reset.rspData i = 0) ∧
    State.reset.rxq = [] ∧ State.reset.txs = []

/-- R250, R251: the reset input puts every piece of the block's state into its reset value in one step. That the inputs
still to come stay, and that `busReadData` is cleared with the block, is the model's choice (log 9). -/
def Obligations.ResetInputRestoresResetState : Prop :=
  ∀ (s : State) (rest : List Input), s.pending = .reset :: rest →
    step s = .next { State.reset with pending := rest }

/-- A step runs the decoded instruction: a pending bus transaction or event (R69, R93, R94) acts as `exec` of what it
decodes to, on the state with that input taken; KIND 0 has no effect (R94). With nothing pending, an enabled RX_STEP runs
(R121) and otherwise nothing happens (the model's choice, log 4). -/
def Obligations.StepRunsTheDecodedInput : Prop :=
  (∀ (s : State) (w : BitVec 43) (rest : List Input), s.pending = .bus w :: rest →
    ∃ i, decode (.bus w) = .ok i ∧ step s = exec i { s with pending := rest }) ∧
  (∀ (s : State) (w : BitVec 10) (rest : List Input) (i : Instr), s.pending = .event w :: rest →
    decode (.event w) = .ok i → step s = exec i { s with pending := rest }) ∧
  (∀ (s : State) (d : Byte) (rest : List Input), s.pending = .event (0b00#2 ++ d) :: rest →
    step s = .next { s with pending := rest }) ∧
  (∀ s : State, s.pending = [] → s.rxState ≠ .idle → s.rxq ≠ [] → step s = exec .rxStep s) ∧
  (∀ s : State, s.pending = [] → s.rxState = .idle ∨ s.rxq = [] → step s = .next s)

/-- Words written out from the spec's encodings (R90, R91, R93, R94, R150) decode to their rows. -/
def Obligations.SpecWordsDecodeToTheirRows : Prop :=
  decode (.cmd 0x00000007) = .ok .flashErase ∧ decode (.cmd 0x0000002C) = .ok .selectFlashType ∧
  decode (.cmd 0x000001AB) = .ok (.encodeRaw 0xAB) ∧ decode (.cmd 0x00000200) = .ok .recv ∧
  decode (.cmd 0x00000300) = .ok .clear ∧
  decode (.bus 0x4040001C200) = .ok (.regWrite 0x004 115200) ∧ decode (.bus 0x1000000000) = .ok (.regRead 0x010) ∧
  decode (.event 0x103) = .ok (.rxByte 0x03) ∧ decode (.event 0x200) = .ok .rxTimeout ∧
  decode (.event 0x300) = .ok .rxStep ∧
  decode (.response 0x33) = .ok .rspChipId ∧ decode (.response 0x26) = .ok .rspFlashId ∧
  decode (.response 0x28) = .ok .rspBaudAck ∧ decode (.response 0x0C) = .ok (.rspGeneric 0x0C)

/-- Every operation completes in every state: no meaning faults or refuses, and so no step does (R220: an error never
transfers control; log 14). -/
def Obligations.EveryOperationCompletes : Prop :=
  (∀ (i : Instr) (s : State), ∃ t, exec i s = .next t) ∧ ∀ s : State, ∃ t, step s = .next t

/-! ## The command serializer -/

/-- R172, R177, R182: the CMD words 0x07, 0x25 and 0x32 are the three commands without a payload, and each always emits the
same frame. -/
def Obligations.FixedCommandsEmitTheirFrames : Prop :=
  decode (.cmd 0x00000007) = .ok .flashErase ∧ decode (.cmd 0x00000025) = .ok .flashId ∧
  decode (.cmd 0x00000032) = .ok .chipId ∧
  ∀ s : State,
    exec .flashErase s = .next { s with
      txs := s.txs ++ [0x02, 0x07, 0x05], txLastLen := 3, txLastCsum := 0x05, hostErr := .none } ∧
    exec .flashId s = .next { s with
      txs := s.txs ++ [0x02, 0x25, 0x27], txLastLen := 3, txLastCsum := 0x27, hostErr := .none } ∧
    exec .chipId s = .next { s with
      txs := s.txs ++ [0x02, 0x32, 0x30], txLastLen := 3, txLastCsum := 0x30, hostErr := .none }

/-- R173: FLASH_WRITE, CMD word 0x09. With at most 249 data bytes it emits LEN = n + 6, type 0x09, the address
little-endian, the first n PBUF bytes and their checksum; with more it is refused with PAYLOAD_TOO_LONG and changes nothing
else. -/
def Obligations.FlashWriteEmitsAddressThenData : Prop :=
  decode (.cmd 0x00000009) = .ok .flashWrite ∧
  (∀ s : State, s.pbufLen.toNat ≤ 249 →
    let a := s.argAddr
    let data := (List.range s.pbufLen.toNat).map fun i => Memory.read s.pbuf i
    let c : Byte := 0x09 ^^^ (s.pbufLen + 6) ^^^ a.extractLsb' 0 8 ^^^ a.extractLsb' 8 8 ^^^ a.extractLsb' 16 8 ^^^
      a.extractLsb' 24 8 ^^^ data.foldr (· ^^^ ·) 0
    exec .flashWrite s = .next { s with
      txs := s.txs ++ ([s.pbufLen + 6, 0x09, a.extractLsb' 0 8, a.extractLsb' 8 8, a.extractLsb' 16 8,
        a.extractLsb' 24 8] ++ data ++ [c])
      txLastLen := s.pbufLen.setWidth 9 + 7
      txLastCsum := c
      hostErr := .none }) ∧
  ∀ s : State, 249 < s.pbufLen.toNat → exec .flashWrite s = .next { s with hostErr := .payloadTooLong }

/-- R174, R175: FLASH_READ, CMD word 0x0B, and RAM_READ, CMD word 0x1F, emit LEN = 8, their type, address and length
little-endian, and the checksum. -/
def Obligations.ReadCommandsEmitAddressThenLength : Prop :=
  decode (.cmd 0x0000000B) = .ok .flashRead ∧ decode (.cmd 0x0000001F) = .ok .ramRead ∧
  ∀ s : State,
    let a := s.argAddr
    let m := s.argLen
    let fields : List Byte := [a.extractLsb' 0 8, a.extractLsb' 8 8, a.extractLsb' 16 8, a.extractLsb' 24 8,
      m.extractLsb' 0 8, m.extractLsb' 8 8]
    let x : Byte := a.extractLsb' 0 8 ^^^ a.extractLsb' 8 8 ^^^ a.extractLsb' 16 8 ^^^ a.extractLsb' 24 8 ^^^
      m.extractLsb' 0 8 ^^^ m.extractLsb' 8 8
    exec .flashRead s = .next { s with
      txs := s.txs ++ ([0x08, 0x0B] ++ fields ++ [0x03 ^^^ x]), txLastLen := 9, txLastCsum := 0x03 ^^^ x,
      hostErr := .none } ∧
    exec .ramRead s = .next { s with
      txs := s.txs ++ ([0x08, 0x1F] ++ fields ++ [0x17 ^^^ x]), txLastLen := 9, txLastCsum := 0x17 ^^^ x,
      hostErr := .none }

/-- R181: SELECT_FLASH_TYPE, CMD word 0x2C, emits LEN = 7, type 0x2C, the flash type, the jump little-endian, and the checksum. -/
def Obligations.SelectFlashTypeEmitsTypeThenJump : Prop :=
  decode (.cmd 0x0000002C) = .ok .selectFlashType ∧
  ∀ s : State,
    let j := s.argJump
    let c : Byte := 0x2B ^^^ s.argFtype ^^^ j.extractLsb' 0 8 ^^^ j.extractLsb' 8 8 ^^^ j.extractLsb' 16 8 ^^^
      j.extractLsb' 24 8
    exec .selectFlashType s = .next { s with
      txs := s.txs ++ [0x07, 0x2C, s.argFtype, j.extractLsb' 0 8, j.extractLsb' 8 8, j.extractLsb' 16 8,
        j.extractLsb' 24 8, c]
      txLastLen := 8
      txLastCsum := c
      hostErr := .none }

/-- R178, R179, R180: CHANGE_BAUD, CMD word 0x27. For a target baud in 3914..1,999,999 it emits the integer nearest to
1,000,000 / b, the even one of two equally near, as its one payload byte, and that integer lies in 1..255; every other
target baud is refused with BAUD_OUT_OF_RANGE and nothing else changes. -/
def Obligations.ChangeBaudEmitsNearestDivisor : Prop :=
  decode (.cmd 0x00000027) = .ok .changeBaud ∧
  (∀ s : State, 3914 ≤ s.argBaud.toNat → s.argBaud.toNat ≤ 1999999 →
    ∃ d : Nat, 1 ≤ d ∧ d ≤ 255 ∧
      2 * (s.argBaud.toNat * d) ≤ 2000000 + s.argBaud.toNat ∧
      2000000 ≤ 2 * (s.argBaud.toNat * d) + s.argBaud.toNat ∧
      (2 * (s.argBaud.toNat * d) = 2000000 + s.argBaud.toNat ∨
        2000000 = 2 * (s.argBaud.toNat * d) + s.argBaud.toNat → d % 2 = 0) ∧
      exec .changeBaud s = .next { s with
        txs := s.txs ++ [0x03, 0x27, BitVec.ofNat 8 d, 0x27 ^^^ 0x03 ^^^ BitVec.ofNat 8 d]
        txLastLen := 4
        txLastCsum := 0x27 ^^^ 0x03 ^^^ BitVec.ofNat 8 d
        hostErr := .none }) ∧
  ∀ s : State, s.argBaud.toNat < 3914 ∨ 1999999 < s.argBaud.toNat →
    exec .changeBaud s = .next { s with hostErr := .baudOutOfRange }

/-- R115: ENCODE_RAW, CMD words 0x100 + t. With at most 253 bytes it emits LEN = n + 2, the given type, the first n PBUF
bytes and the checksum; with more it is refused with PAYLOAD_TOO_LONG and changes nothing else. -/
def Obligations.EncodeRawEmitsBuffer : Prop :=
  (∀ t : Byte, decode (.cmd (0x000001#24 ++ t)) = .ok (.encodeRaw t)) ∧
  (∀ (t : Byte) (s : State), s.pbufLen.toNat ≤ 253 →
    let data := (List.range s.pbufLen.toNat).map fun i => Memory.read s.pbuf i
    let c : Byte := t ^^^ (s.pbufLen + 2) ^^^ data.foldr (· ^^^ ·) 0
    exec (.encodeRaw t) s = .next { s with
      txs := s.txs ++ ([s.pbufLen + 2, t] ++ data ++ [c])
      txLastLen := s.pbufLen.setWidth 9 + 3
      txLastCsum := c
      hostErr := .none }) ∧
  ∀ (t : Byte) (s : State), 253 < s.pbufLen.toNat →
    exec (.encodeRaw t) s = .next { s with hostErr := .payloadTooLong }

/-! ## RECV, CLEAR and the host's register access -/

/-- R129: RECV, CMD word 0x200. It arms an idle receiver and clears every response register and flag; RXQ, RX_OVERRUN, the
operands and the transmit side stay. While the receiver is armed it is refused with BUSY and nothing else changes. -/
def Obligations.RecvArmsAnIdleReceiver : Prop :=
  decode (.cmd 0x00000200) = .ok .recv ∧
  (∀ s : State, s.rxState = .idle →
    exec .recv s = .next { s with
      rxState := .waitLen, hostErr := .none, decErr := .none,
      rspDone := false, rspValid := false, statusValid := false, chipIdValid := false, flashIdValid := false,
      rspLength := 0, rspType := 0, rspStatus := 0, rspDataLen := 0, rspChecksum := 0, rspCalcChecksum := 0,
      rspKind := .generic, chipId := 0, flashId := 0, rxCount := 0, rxbuf := [], rspData := [] }) ∧
  ∀ s : State, s.rxState ≠ .idle → exec .recv s = .next { s with hostErr := .busy }

/-- R130: CLEAR, CMD word 0x300, in every RX_STATE, clears the response, empties RXQ and clears RX_OVERRUN, so that STATUS is 0; the
operands, PBUF and the transmit side stay. -/
def Obligations.ClearResetsTheReceiveSide : Prop :=
  decode (.cmd 0x00000300) = .ok .clear ∧
  ∀ s : State, ∃ t, exec .clear s = .next t ∧ statusWord t = 0 ∧
    t = { s with
      rxState := .idle, hostErr := .none, decErr := .none, rxOverrun := false, rxq := [], rxqCount := 0,
      rspDone := false, rspValid := false, statusValid := false, chipIdValid := false, flashIdValid := false,
      rspLength := 0, rspType := 0, rspStatus := 0, rspDataLen := 0, rspChecksum := 0, rspCalcChecksum := 0,
      rspKind := .generic, chipId := 0, flashId := 0, rxCount := 0, rxbuf := [], rspData := [] }

/-- R22, R200, R203, R204: a read returns the register its number names, zero-extended; CMD and every undefined number read 0; no
state of the block changes. That the answer is put into `busReadData`, in every clause, is the model's choice (log 5): the
spec returns it to the host and gives it no place in the state. -/
def Obligations.RegReadReturnsTheMappedValue : Prop :=
  ∀ s : State,
    let reads (n : RegNum) (v : Word) : Prop := exec (.regRead n) s = .next { s with busReadData := v }
    reads 0x000 0 ∧ reads 0x001 (statusWord s) ∧ reads 0x002 s.argAddr ∧ reads 0x003 (s.argLen.setWidth 32) ∧
    reads 0x004 s.argBaud ∧ reads 0x005 (s.argFtype.setWidth 32) ∧ reads 0x006 s.argJump ∧
    reads 0x007 (s.pbufLen.setWidth 32) ∧ reads 0x008 (s.rspLength.setWidth 32) ∧ reads 0x009 (s.rspType.setWidth 32) ∧
    reads 0x00A (s.rspStatus.setWidth 32) ∧ reads 0x00B (s.rspDataLen.setWidth 32) ∧
    reads 0x00C (s.rspChecksum.setWidth 32) ∧ reads 0x00D (s.rspCalcChecksum.setWidth 32) ∧
    reads 0x00E (match s.rspKind with | .generic => 0 | .flashId => 1 | .baudAck => 2 | .chipId => 3) ∧
    reads 0x00F s.chipId ∧ reads 0x010 (s.flashId.setWidth 32) ∧ reads 0x011 (s.rxCount.setWidth 32) ∧
    reads 0x012 s.rxqCount ∧ reads 0x013 (s.txLastLen.setWidth 32) ∧ reads 0x014 (s.txLastCsum.setWidth 32) ∧
    (∀ i : Nat, i < 253 → reads (BitVec.ofNat 10 (0x100 + i)) ((Memory.read s.pbuf i).setWidth 32)) ∧
    (∀ i : Nat, i < 255 → reads (BitVec.ofNat 10 (0x200 + i)) ((Memory.read s.rxbuf i).setWidth 32)) ∧
    (∀ i : Nat, i < 252 → reads (BitVec.ofNat 10 (0x300 + i)) ((Memory.read s.rspData i).setWidth 32)) ∧
    (∀ n : RegNum, (0x015 ≤ n.toNat ∧ n.toNat ≤ 0x0FF) ∨ (0x1FD ≤ n.toNat ∧ n.toNat ≤ 0x1FF) ∨ n.toNat = 0x2FF ∨
      0x3FC ≤ n.toNat → reads n 0)

/-- R24, R25, R221, R222: STATUS read field by field, RSP_OK computed, the reserved bits 0. -/
def Obligations.StatusReadsFieldByField : Prop :=
  ∀ s : State,
    let w := statusWord s
    (s.rxState = .idle → w.extractLsb' 0 2 = 0) ∧ (s.rxState = .waitLen → w.extractLsb' 0 2 = 1) ∧
    (s.rxState = .collect → w.extractLsb' 0 2 = 2) ∧
    w.getLsbD 2 = s.rspDone ∧ w.getLsbD 3 = s.rspValid ∧ w.getLsbD 4 = s.statusValid ∧
    (w.getLsbD 5 = true ↔ s.statusValid = true ∧ s.rspStatus = 0) ∧
    w.getLsbD 6 = s.chipIdValid ∧ w.getLsbD 7 = s.flashIdValid ∧
    (s.decErr = .none → w.extractLsb' 8 3 = 0) ∧ (s.decErr = .transportTimeout → w.extractLsb' 8 3 = 1) ∧
    (s.decErr = .frameTooShort → w.extractLsb' 8 3 = 2) ∧ (s.decErr = .lengthMismatch → w.extractLsb' 8 3 = 3) ∧
    (s.decErr = .checksumMismatch → w.extractLsb' 8 3 = 4) ∧
    w.getLsbD 11 = false ∧
    (s.hostErr = .none → w.extractLsb' 12 3 = 0) ∧ (s.hostErr = .illegalOp → w.extractLsb' 12 3 = 1) ∧
    (s.hostErr = .illegalType → w.extractLsb' 12 3 = 2) ∧ (s.hostErr = .payloadTooLong → w.extractLsb' 12 3 = 3) ∧
    (s.hostErr = .baudOutOfRange → w.extractLsb' 12 3 = 4) ∧ (s.hostErr = .busy → w.extractLsb' 12 3 = 5) ∧
    (s.hostErr = .reservedField → w.extractLsb' 12 3 = 6) ∧ (s.hostErr = .badReg → w.extractLsb' 12 3 = 7) ∧
    w.getLsbD 15 = s.rxOverrun ∧ w.extractLsb' 16 16 = 0

/-- R201: a write to an RW register stores the low bits of the value and changes nothing else, STATUS included; a write to
PBUF[i] changes entry i alone. -/
def Obligations.RegWriteStoresTheLowBits : Prop :=
  ∀ (s : State) (v : Word), BuffersCanonical s →
    exec (.regWrite 0x002 v) s = .next { s with argAddr := v } ∧
    exec (.regWrite 0x003 v) s = .next { s with argLen := v.extractLsb' 0 16 } ∧
    exec (.regWrite 0x004 v) s = .next { s with argBaud := v } ∧
    exec (.regWrite 0x005 v) s = .next { s with argFtype := v.extractLsb' 0 8 } ∧
    exec (.regWrite 0x006 v) s = .next { s with argJump := v } ∧
    exec (.regWrite 0x007 v) s = .next { s with pbufLen := v.extractLsb' 0 8 } ∧
    ∀ i : Nat, i < 253 → ∃ t, exec (.regWrite (BitVec.ofNat 10 (0x100 + i)) v) s = .next t ∧
      t = { s with pbuf := t.pbuf } ∧
      ∀ j, Memory.read t.pbuf j = if j = i then v.extractLsb' 0 8 else Memory.read s.pbuf j

/-- R202: a write to a read-only register, a read-only buffer byte or an undefined number sets HOST_ERR to BAD_REG and
changes nothing else. -/
def Obligations.RegWriteElsewhereIsBadReg : Prop :=
  ∀ (s : State) (n : RegNum) (v : Word),
    n.toNat = 0x001 ∨ (0x008 ≤ n.toNat ∧ n.toNat ≤ 0x0FF) ∨ 0x1FD ≤ n.toNat →
    exec (.regWrite n v) s = .next { s with hostErr := .badReg }

/-- R205: a bus write of a command's word to CMD runs that command. -/
def Obligations.CmdWriteRunsItsCommand : Prop :=
  ∀ (s : State) (t : Byte),
    exec (.regWrite 0 0x00000007) s = exec .flashErase s ∧ exec (.regWrite 0 0x00000009) s = exec .flashWrite s ∧
    exec (.regWrite 0 0x0000000B) s = exec .flashRead s ∧ exec (.regWrite 0 0x0000001F) s = exec .ramRead s ∧
    exec (.regWrite 0 0x00000025) s = exec .flashId s ∧ exec (.regWrite 0 0x00000027) s = exec .changeBaud s ∧
    exec (.regWrite 0 0x0000002C) s = exec .selectFlashType s ∧ exec (.regWrite 0 0x00000032) s = exec .chipId s ∧
    exec (.regWrite 0 (0x00000100 ||| t.setWidth 32)) s = exec (.encodeRaw t) s ∧
    exec (.regWrite 0 0x00000200) s = exec .recv s ∧ exec (.regWrite 0 0x00000300) s = exec .clear s

/-- R226: the checks of a CMD write, each deciding the error where no earlier one fails. -/
def Obligations.CmdChecksFollowTheirOrder : Prop :=
  ∀ (s : State) (v : Word),
    let op := v.toNat / 256 % 256
    let ty := v.toNat % 256
    let refused (e : HostErr) : Prop := exec (.regWrite 0 v) s = .next { s with hostErr := e }
    (65536 ≤ v.toNat → refused .reservedField) ∧
    (v.toNat < 65536 → 4 ≤ op → refused .illegalOp) ∧
    (v.toNat < 65536 → op = 0 → ty ∉ [0x07, 0x09, 0x0B, 0x1F, 0x25, 0x27, 0x2C, 0x32] → refused .illegalType) ∧
    (v.toNat < 65536 → op = 2 ∨ op = 3 → ty ≠ 0 → refused .reservedField) ∧
    (v.toNat = 0x200 → s.rxState ≠ .idle → refused .busy) ∧
    (v.toNat < 65536 → op = 1 → 253 < s.pbufLen.toNat → refused .payloadTooLong) ∧
    (v.toNat = 0x09 → 249 < s.pbufLen.toNat → refused .payloadTooLong) ∧
    (v.toNat = 0x27 → s.argBaud.toNat < 3914 ∨ 1999999 < s.argBaud.toNat → refused .baudOutOfRange)

/-- R224: a bus write that leaves an error in HOST_ERR after a CMD write has had no other effect. -/
def Obligations.RefusedCommandOnlySetsHostErr : Prop :=
  ∀ (s t : State) (v : Word), exec (.regWrite 0 v) s = .next t → t.hostErr ≠ .none →
    t = { s with hostErr := t.hostErr }

/-! ## The receiver -/

/-- R120: a delivered byte is appended to RXQ, or dropped with RX_OVERRUN = 1 when RXQ holds RXQ_DEPTH bytes; RXQ_COUNT
follows. Its event word has KIND 0b01. For every value of RXQ_DEPTH. -/
def Obligations.RxByteQueuesOrOverruns : Prop :=
  (∀ b : Byte, decode (.event (0b01#2 ++ b)) = .ok (.rxByte b)) ∧
  ∀ (s : State) (b : Byte),
    exec (.rxByte b) s = .next
      (if Config.params.rxqDepth = some s.rxq.length then
        { s with rxOverrun := true, rxqCount := BitVec.ofNat 32 (min s.rxq.length 0xFFFFFFFF) }
      else
        { s with rxq := s.rxq ++ [b], rxqCount := BitVec.ofNat 32 (min (s.rxq.length + 1) 0xFFFFFFFF) })

/-- R124, R128: a timeout has no effect while IDLE or while a byte waits; in WAIT_LEN it ends the reception with
TRANSPORT_TIMEOUT; in COLLECT with LENGTH_MISMATCH, or FRAME_TOO_SHORT when RSP_LENGTH = 1. Its event word has KIND 0b10 and
any DATA. -/
def Obligations.RxTimeoutEndsAStarvedReception : Prop :=
  (∀ d : Byte, decode (.event (0b10#2 ++ d)) = .ok .rxTimeout) ∧
  ∀ s : State,
    (s.rxState = .idle ∨ s.rxq ≠ [] → exec .rxTimeout s = .next s) ∧
    (s.rxState = .waitLen → s.rxq = [] → exec .rxTimeout s = .next { s with
      rxState := .idle, rspDone := true, rspValid := false, decErr := .transportTimeout }) ∧
    (s.rxState = .collect → s.rxq = [] → s.rxCount.toNat < s.rspLength.toNat → exec .rxTimeout s = .next { s with
      rxState := .idle, rspDone := true, rspValid := false,
      decErr := if s.rspLength = 1 then .frameTooShort else .lengthMismatch })

/-- R122: RX_STEP in WAIT_LEN takes the length byte; 0 ends the frame at once as FRAME_TOO_SHORT, any other starts
COLLECT. -/
def Obligations.RxStepTakesTheLengthByte : Prop :=
  ∀ (s : State) (b : Byte) (q : List Byte), s.rxState = .waitLen → s.rxq = b :: q →
    exec .rxStep s = .next
      (if b = 0 then { s with
        rxq := q, rxqCount := BitVec.ofNat 32 (min q.length 0xFFFFFFFF), rspLength := 0, rxCount := 0,
        rxState := .idle, rspDone := true, rspValid := false, decErr := .frameTooShort }
      else { s with
        rxq := q, rxqCount := BitVec.ofNat 32 (min q.length 0xFFFFFFFF), rspLength := b, rxCount := 0,
        rxState := .collect })

/-- R123: RX_STEP in COLLECT, more body bytes to come: the byte goes to RXBUF[RX_COUNT], RX_COUNT counts it, and the
reception goes on. -/
def Obligations.RxStepStoresABodyByte : Prop :=
  ∀ (s : State) (b : Byte) (q : List Byte), BuffersCanonical s → s.rxState = .collect → s.rxq = b :: q →
    s.rxCount.toNat + 1 < s.rspLength.toNat →
    ∃ t, exec .rxStep s = .next t ∧
      t = { s with rxq := q, rxqCount := BitVec.ofNat 32 (min q.length 0xFFFFFFFF), rxCount := s.rxCount + 1,
                   rxbuf := t.rxbuf } ∧
      ∀ i, Memory.read t.rxbuf i = if i = s.rxCount.toNat then b else Memory.read s.rxbuf i

/-- R116, R123, R125: a frame whose length byte is 1 ends after its one body byte as FRAME_TOO_SHORT. -/
def Obligations.LengthOneFrameIsTooShort : Prop :=
  ∀ (s : State) (b : Byte) (q : List Byte), BuffersCanonical s → s.rxState = .collect → s.rxq = b :: q →
    s.rxCount = 0 → s.rspLength = 1 →
    ∃ t, exec .rxStep s = .next t ∧
      t = { s with rxq := q, rxqCount := BitVec.ofNat 32 (min q.length 0xFFFFFFFF), rxCount := 1, rxbuf := t.rxbuf,
                   rxState := .idle, rspDone := true, rspValid := false, decErr := .frameTooShort } ∧
      ∀ i, Memory.read t.rxbuf i = if i = 0 then b else Memory.read s.rxbuf i

/-- R116, R118, R123, R125, R126, R127: RX_STEP on the last body byte of a frame with LEN of at least 2. The frame's type is
RXBUF[0], its checksum that last byte. It ends with CHECKSUM_MISMATCH when VERIFY_RX_CHECKSUM is set and the computed
checksum differs; otherwise it is a response, and the parse rule of its type runs on it. That this branch is `exec` of a
response row, an operation of its own on the frame body in RXBUF, is the model's choice (log 7). -/
def Obligations.RxStepEndsTheFrame : Prop :=
  ∀ (s : State) (b : Byte) (q : List Byte), BuffersCanonical s → s.rxState = .collect → s.rxq = b :: q →
    2 ≤ s.rspLength.toNat → s.rxCount.toNat + 1 = s.rspLength.toNat →
    let ended : State := { s with
      rxq := q, rxqCount := BitVec.ofNat 32 (min q.length 0xFFFFFFFF), rxCount := s.rspLength,
      rxbuf := Memory.write s.rxbuf s.rxCount.toNat b, rxState := .idle, rspDone := true,
      rspType := Memory.read s.rxbuf 0, rspChecksum := b,
      rspCalcChecksum := csum (Memory.read s.rxbuf 0)
        ((List.range (s.rspLength.toNat - 2)).map fun i => Memory.read s.rxbuf (1 + i)) }
    exec .rxStep s =
      if Config.params.verifyRxChecksum = true ∧ ended.rspCalcChecksum ≠ b then
        .next { ended with rspValid := false, decErr := .checksumMismatch }
      else exec (decodeResponse (Memory.read s.rxbuf 0)) { ended with rspValid := true, decErr := .none }

/-- A turn of RX_STEP that is not enabled passes without effect: the model's choice (log 3). R121 says when it is
enabled. -/
def Obligations.DisabledRxStepPasses : Prop :=
  ∀ s : State, s.rxState = .idle ∨ s.rxq = [] → exec .rxStep s = .next s

/-! ## The response parser -/

/-- R150, R151: the registry selects FLASH_ID for 0x26, BAUD_ACK for 0x28, CHIP_ID for 0x33 and the generic rule for every
other type byte; its keys are distinct. -/
def Obligations.RegistrySelectsTheParseRule : Prop :=
  decodeResponse 0x26 = .rspFlashId ∧ decodeResponse 0x28 = .rspBaudAck ∧ decodeResponse 0x33 = .rspChipId ∧
  (∀ t : Byte, t ≠ 0x26 → t ≠ 0x28 → t ≠ 0x33 → decodeResponse t = .rspGeneric t) ∧
  (registry.map Prod.fst).Nodup

/-- R152, R154, R156, R160: the chip-ID rule on the frame body in RXBUF. CHIP_ID is the big-endian value of the four data
bytes exactly when LEN = 7, whatever the status byte. That the rule is an operation of its own, reading its payload from
RXBUF, is the model's choice (log 7). -/
def Obligations.ChipIdResponseIsParsed : Prop :=
  ∀ s : State, BuffersCanonical s → ∃ t, exec .rspChipId s = .next t ∧
    ParsedAs .chipId
      (if s.rspLength = 7 then
        (BitVec.ofNat 32 ((Memory.read s.rxbuf 2).toNat * 2 ^ 24 + (Memory.read s.rxbuf 3).toNat * 2 ^ 16 +
          (Memory.read s.rxbuf 4).toNat * 2 ^ 8 + (Memory.read s.rxbuf 5).toNat), true)
      else (s.chipId, s.chipIdValid))
      (s.flashId, s.flashIdValid) s t

/-- R152, R154, R157, R160: the flash-ID rule. FLASH_ID is manufacturer · 256 + device exactly when LEN = 5, whatever the
status byte. That the rule is an operation of its own, reading its payload from RXBUF, is the model's choice (log 7). -/
def Obligations.FlashIdResponseIsParsed : Prop :=
  ∀ s : State, BuffersCanonical s → ∃ t, exec .rspFlashId s = .next t ∧
    ParsedAs .flashId (s.chipId, s.chipIdValid)
      (if s.rspLength = 5 then
        (BitVec.ofNat 16 ((Memory.read s.rxbuf 2).toNat * 256 + (Memory.read s.rxbuf 3).toNat), true)
      else (s.flashId, s.flashIdValid)) s t

/-- R152, R154, R158, R159: the baud-acknowledge and the generic rule write the common fields only. That the rules are operations
of their own, reading their payload from RXBUF, is the model's choice (log 7). -/
def Obligations.StatusOnlyResponsesAreParsed : Prop :=
  ∀ (s : State) (ty : Byte), BuffersCanonical s →
    (∃ t, exec .rspBaudAck s = .next t ∧
      ParsedAs .baudAck (s.chipId, s.chipIdValid) (s.flashId, s.flashIdValid) s t) ∧
    (∃ t, exec (.rspGeneric ty) s = .next t ∧
      ParsedAs .generic (s.chipId, s.chipIdValid) (s.flashId, s.flashIdValid) s t)

/-! ## The pure codec and the encodings -/

/-- R111: the checksum is type ⊕ length ⊕ the XOR of the payload. -/
def Obligations.ChecksumClosedForm : Prop :=
  ∀ (t : Byte) (p : List Byte), p.length ≤ 253 →
    csum t p = t ^^^ BitVec.ofNat 8 (p.length + 2) ^^^ p.foldr (· ^^^ ·) 0

/-- R114: the checksum does not depend on the order of the payload's bytes; in particular two halves may be swapped. -/
def Obligations.ChecksumIgnoresPayloadOrder : Prop :=
  (∀ (t : Byte) (p q : List Byte), p.Perm q → csum t p = csum t q) ∧
  ∀ (t : Byte) (p1 p2 : List Byte), csum t (p1 ++ p2) = csum t (p2 ++ p1)

/-- R80, R87: a frame that Encode defines has LEN + 1 bytes, LEN, type, payload and checksum at their offsets, and the XOR of
all its bytes is 0x00. -/
def Obligations.EncodedFrameLayoutAndXor : Prop :=
  ∀ (t : Byte) (p : List Byte), p.length ≤ 253 →
    let f := encodeFrame t p
    f.length = p.length + 3 ∧ (f.getD 0 0).toNat = p.length + 2 ∧ f.getD 1 0 = t ∧
    (∀ i, i < p.length → f.getD (2 + i) 0 = p.getD i 0) ∧ f.getD (p.length + 2) 0 = csum t p ∧
    f.foldr (· ^^^ ·) 0 = 0

/-- R116, R117, R118: Decode's checks in their order, and the split of a body of the right length. -/
def Obligations.DecodeChecksInOrder : Prop :=
  ∀ (verify : Bool) (len : Byte) (raw : List Byte),
    (len.toNat < 2 → decodeFrame verify len raw = .frameTooShort) ∧
    (2 ≤ len.toNat → raw.length ≠ len.toNat → decodeFrame verify len raw = .lengthMismatch) ∧
    (∀ (t c : Byte) (p : List Byte), raw = t :: (p ++ [c]) → len.toNat = p.length + 2 →
      decodeFrame verify len raw =
        if verify = true ∧ csum t p ≠ c then .checksumMismatch t c (csum t p) else .decoded t p c (csum t p))

/-- R119: decoding an encoded frame gives its type, payload and checksum back, whatever VERIFY_RX_CHECKSUM is. -/
def Obligations.CodecRoundTrip : Prop :=
  ∀ (verify : Bool) (t : Byte) (p : List Byte), p.length ≤ 253 →
    decodeFrame verify ((encodeFrame t p).getD 0 0) ((encodeFrame t p).drop 1) = .decoded t p (csum t p) (csum t p)

/-- Decode and encode agree (R90-R95): every well-formed instruction's encoded object decodes to it. -/
def Obligations.DecodeInvertsEncode : Prop :=
  ∀ i : Instr, i.wellFormed = true → decode (encode i) = .ok i

/-- Each word has one meaning (R90-R95): an object that decodes is the encoding of what it decodes to, the bits the spec ignores
(R93, R94: DATA of a read, of RX_TIMEOUT and of RX_STEP) aside. That the encoder writes those bits 0, which the clauses with
`0#32` and `0#8` say, is the model's choice (log 13). -/
def Obligations.EncodeInvertsDecode : Prop :=
  (∀ (v : Word) (i : Instr), decode (.cmd v) = .ok i → encode i = .cmd v) ∧
  (∀ (n : RegNum) (v : Word), encode (decodeBus (1#1 ++ n ++ v)) = .bus (1#1 ++ n ++ v)) ∧
  (∀ (n : RegNum) (v : Word), encode (decodeBus (0#1 ++ n ++ v)) = .bus (0#1 ++ n ++ 0#32)) ∧
  (∀ b : Byte, ∃ i, decode (.event (0b01#2 ++ b)) = .ok i ∧ encode i = .event (0b01#2 ++ b)) ∧
  (∀ b : Byte, ∃ i, decode (.event (0b10#2 ++ b)) = .ok i ∧ encode i = .event (0b10#2 ++ 0#8)) ∧
  (∀ b : Byte, ∃ i, decode (.event (0b11#2 ++ b)) = .ok i ∧ encode i = .event (0b11#2 ++ 0#8)) ∧
  ∀ t : Byte, encode (decodeResponse t) = .response t

/-! ## The whole machine -/

/-- The invariants hold after reset (R50). -/
def Obligations.ResetSatisfiesInvariant : Prop := Inv State.reset ∧ TxsFramed State.reset

/-- R26, R27, R29: every step keeps the invariant `Inv` of the buffers, the receiver and the response registers, from every state
that has it and for every value of the parameters. `Inv` says these three rules whole, and, field by field in `ReceiverInv`, what
R28, R40, R42, R43, R46-R48, R127, R222 and R253 say of a state between two steps. -/
def Obligations.StepKeepsInvariant : Prop :=
  ∀ s t : State, Inv s → step s = .next t → Inv t

/-- Every step keeps the buffers in canonical form, from every state whose buffers are. The form is the model's own, not the
spec's (log 12). -/
def Obligations.StepKeepsBuffersCanonical : Prop :=
  ∀ s t : State, BuffersCanonical s → step s = .next t → BuffersCanonical t

/-- R44, R70, R81: every step keeps TXS a sequence of whole, uninterleaved frames, the last one described by TX_LAST_LEN and
TX_LAST_CSUM. -/
def Obligations.StepKeepsTxsFramed : Prop :=
  ∀ s t : State, TxsFramed s → step s = .next t → TxsFramed t

/-- R49, R70, R260: nothing is ever removed from TXS but by reset, and a step adds to it only as a write to CMD, exactly
one whole frame. -/
def Obligations.TxsGrowsByOneWholeFrame : Prop :=
  ∀ s t : State, step s = .next t →
    (∃ rest, s.pending = .reset :: rest) ∨ t.txs = s.txs ∨
    ∃ (w : BitVec 43) (rest : List Input) (v : Word) (ty : Byte) (p : List Byte),
      s.pending = .bus w :: rest ∧ decodeBus w = .regWrite 0 v ∧ p.length ≤ 253 ∧
      t.txs = s.txs ++ encodeFrame ty p

/-- R32: only CLEAR and reset set RX_OVERRUN to 0. -/
def Obligations.OnlyClearAndResetClearOverrun : Prop :=
  ∀ s t : State, step s = .next t → s.rxOverrun = true → t.rxOverrun = false →
    (∃ rest, s.pending = .reset :: rest) ∨
    ∃ (w : BitVec 43) (rest : List Input), s.pending = .bus w :: rest ∧ decodeBus w = .regWrite 0 0x00000300

/-- R30: HOST_ERR changes only by reset, by a write to CMD, or by a refused bus write, which leaves BAD_REG. -/
def Obligations.OnlyBusWritesTouchHostErr : Prop :=
  ∀ s t : State, step s = .next t → t.hostErr ≠ s.hostErr →
    (∃ rest, s.pending = .reset :: rest) ∨
    ∃ (w : BitVec 43) (rest : List Input) (n : RegNum) (v : Word),
      s.pending = .bus w :: rest ∧ decodeBus w = .regWrite n v ∧ (n = 0 ∨ t.hostErr = .badReg)

/-- R113, R127, R223: what the receiver does leaves the host's operands, HOST_ERR and the transmit side alone. -/
def Obligations.ReceiverEventsLeaveTheHostSide : Prop :=
  ∀ (s t : State) (b : Byte),
    exec (.rxByte b) s = .next t ∨ exec .rxTimeout s = .next t ∨ exec .rxStep s = .next t → SameHostSide s t

/-- R201: a write to an argument register or to PBUF during a reception has no effect on it: with any other operands, every
receiver event ends in the same state but for those operands. -/
def Obligations.OperandsDoNotReachTheReception : Prop :=
  ∀ (s t : State) (i : Instr) (b : Byte) (addr : Word) (len : BitVec 16) (baud : Word) (ftype : Byte) (jump : Word)
    (n : Byte) (buf : Memory), i = .rxByte b ∨ i = .rxTimeout ∨ i = .rxStep → exec i s = .next t →
    exec i { s with argAddr := addr, argLen := len, argBaud := baud, argFtype := ftype, argJump := jump,
                    pbufLen := n, pbuf := buf } =
      .next { t with argAddr := addr, argLen := len, argBaud := baud, argFtype := ftype, argJump := jump,
                     pbufLen := n, pbuf := buf }

/-- R121 and the interleaving freedom of spec/93: where RXQ has room, delivering a byte and taking an enabled RX_STEP give
the same state in either order. -/
def Obligations.RxByteCommutesWithRxStep : Prop :=
  ∀ (s : State) (b : Byte), Inv s → s.rxState ≠ .idle → s.rxq ≠ [] →
    Config.params.rxqDepth ≠ some s.rxq.length →
    ∃ u v t, exec (.rxByte b) s = .next u ∧ exec .rxStep u = .next t ∧
      exec .rxStep s = .next v ∧ exec (.rxByte b) v = .next t

/-- R116, R121-R127, R132: the receiver does what Decode says. After RECV, with the length byte and as many body bytes as it
declares in RXQ, the RX_STEPs take exactly those bytes, leave the rest in RXQ, and end with Decode's result: the decoded
fields, FRAME_TOO_SHORT or CHECKSUM_MISMATCH. Each step is one of the machine, with nothing else pending.
That each such step takes an enabled RX_STEP, and so the number of steps, is the model's choice (log 4): the spec asks only
that RX_STEP runs at some point (R121). -/
def Obligations.ReceptionEndsAsDecodeSays : Prop :=
  ∀ (s : State) (len : Byte) (body rest : List Byte), s.rxState = .idle → s.pending = [] →
    s.rxq = len :: (body ++ rest) → body.length = len.toNat →
    ∃ u v : State, exec .recv s = .next u ∧ Sys2Proof.core.run (len.toNat + 1) u = .next v ∧
      SameHostSide u v ∧ v.rxState = .idle ∧ v.rspDone = true ∧ v.rxq = rest ∧ v.rspLength = len ∧ v.rxCount = len ∧
      (∀ i, Memory.read v.rxbuf i = body.getD i 0) ∧
      match decodeFrame Config.params.verifyRxChecksum len body with
      | .decoded t p c k => v.rspValid = true ∧ v.decErr = .none ∧ v.rspType = t ∧ v.rspChecksum = c ∧
          v.rspCalcChecksum = k ∧ v.rspKind = responseKind t ∧ v.statusValid = !p.isEmpty ∧ v.rspStatus = p.headD 0 ∧
          v.rspDataLen.toNat = p.length - 1 ∧ ∀ i, Memory.read v.rspData i = p.tail.getD i 0
      | .frameTooShort => v.rspValid = false ∧ v.decErr = .frameTooShort ∧ ResponseCleared v
      | .checksumMismatch t c k => v.rspValid = false ∧ v.decErr = .checksumMismatch ∧ v.rspType = t ∧
          v.rspChecksum = c ∧ v.rspCalcChecksum = k ∧ ResponseCleared v
      | .lengthMismatch => False

/-- R119, R132: a frame that Encode defines, waiting in RXQ, is received back whole after RECV: its type, status and data,
both checksums, and nothing of what follows it. The count of `p.length + 3` steps rests on the model's choice that a step
with nothing pending takes an enabled RX_STEP (log 4). -/
def Obligations.EncodedFrameIsReceivedBack : Prop :=
  ∀ (s : State) (ty : Byte) (p rest : List Byte), p.length ≤ 253 → s.rxState = .idle → s.pending = [] →
    s.rxq = encodeFrame ty p ++ rest →
    ∃ u v : State, exec .recv s = .next u ∧ Sys2Proof.core.run (p.length + 3) u = .next v ∧
      v.rxq = rest ∧ v.rxState = .idle ∧ v.rspDone = true ∧ v.rspValid = true ∧ v.decErr = .none ∧
      v.rspType = ty ∧ v.rspChecksum = csum ty p ∧ v.rspCalcChecksum = csum ty p ∧ v.rspKind = responseKind ty ∧
      v.statusValid = !p.isEmpty ∧ v.rspStatus = p.headD 0 ∧ v.rspDataLen.toNat = p.length - 1 ∧
      ∀ i, Memory.read v.rspData i = p.tail.getD i 0

/-- R264: an armed receiver is never stuck: within as many steps as RXQ holds bytes it has drained RXQ or ended, and a
timeout then finds the reception ended or ends it. The bound on the steps is the model's choice (log 4: a step with nothing
pending takes an enabled RX_STEP); the spec bounds no such number, it asks for weak fairness (R121). -/
def Obligations.ArmedReceptionEnds : Prop :=
  ∀ s : State, Inv s → s.rxState ≠ .idle → s.pending = [] →
    ∃ (k : Nat) (t u : State), k ≤ s.rxq.length ∧ Sys2Proof.core.run k s = .next t ∧
      exec .rxTimeout t = .next u ∧ u.rxState = .idle ∧ u.rspDone = true
end

