-- ==== Sys2Proof/Laws/Buffer.lean ====
section
/-! SUPPORT. The laws of the byte buffers: read after write, the canonical form, the bounds, and slices. -/

namespace Sys2Proof.Machine

@[simp] theorem Memory.read_nil (i : Nat) : Memory.read [] i = 0#8 := rfl

theorem Memory.wfFrom_cons {lo a : Nat} {b : Byte} {m : Memory} :
    Memory.wfFrom lo ((a, b) :: m) = true ↔ lo ≤ a ∧ b ≠ 0#8 ∧ Memory.wfFrom (a + 1) m = true := by
  simp [Memory.wfFrom, and_assoc]

/-- A buffer whose cells start at `lo` starts at every smaller index too. -/
theorem Memory.wfFrom_mono {lo lo' : Nat} (h : lo' ≤ lo) : ∀ {m : Memory}, Memory.wfFrom lo m = true →
    Memory.wfFrom lo' m = true
  | [], _ => rfl
  | (_, _) :: _, hm => by
    rw [Memory.wfFrom_cons] at hm ⊢
    exact ⟨h.trans hm.1, hm.2⟩

/-- Below its first cell, a canonical buffer reads 0x00. -/
theorem Memory.read_lt_wfFrom {i : Nat} : ∀ {lo : Nat} {m : Memory}, Memory.wfFrom lo m = true → i < lo →
    Memory.read m i = 0#8
  | _, [], _, _ => rfl
  | lo, (a, b) :: m, hm, hi => by
    rw [Memory.wfFrom_cons] at hm
    have hia : i < a := lt_of_lt_of_le hi hm.1
    rw [Memory.read, if_neg (Nat.ne_of_lt hia)]
    exact Memory.read_lt_wfFrom hm.2.2 (Nat.lt_succ_of_lt hia)

theorem Memory.wfFrom_write {i : Nat} {b : Byte} : ∀ {lo : Nat} {m : Memory}, Memory.wfFrom lo m = true → lo ≤ i →
    Memory.wfFrom lo (Memory.write m i b) = true
  | lo, [], _, hi => by
    rw [Memory.write]
    split
    · rfl
    · rename_i hb
      exact Memory.wfFrom_cons.2 ⟨hi, hb, rfl⟩
  | lo, (a, c) :: m, hm, hi => by
    rw [Memory.wfFrom_cons] at hm
    obtain ⟨h1, h2, h3⟩ := hm
    rw [Memory.write]
    split
    · rename_i hia
      split
      · exact Memory.wfFrom_cons.2 ⟨h1, h2, h3⟩
      · rename_i hb
        exact Memory.wfFrom_cons.2 ⟨hi, hb, Memory.wfFrom_cons.2 ⟨hia, h2, h3⟩⟩
    · split
      · rename_i hia
        split
        · exact Memory.wfFrom_mono (by omega) h3
        · rename_i hb
          exact Memory.wfFrom_cons.2 ⟨hi, hb, hia ▸ h3⟩
      · exact Memory.wfFrom_cons.2 ⟨h1, h2, Memory.wfFrom_write h3 (by omega)⟩

/-- Every write keeps the canonical form. -/
theorem Memory.wf_write {m : Memory} (h : m.wf = true) (i : Nat) (b : Byte) : (Memory.write m i b).wf = true :=
  Memory.wfFrom_write h (Nat.zero_le i)

theorem Memory.wf_writeFrom : ∀ {bs : List Byte} {m : Memory} {i : Nat}, m.wf = true →
    (Memory.writeFrom m i bs).wf = true
  | [], _, _, h => h
  | b :: _, m, i, h => Memory.wf_writeFrom (m := Memory.write m i b) (Memory.wf_write h i b)

/-- Reading the entry just written gives the value written. -/
theorem Memory.read_write_same {i : Nat} {b : Byte} : ∀ {lo : Nat} {m : Memory}, Memory.wfFrom lo m = true →
    Memory.read (Memory.write m i b) i = b
  | _, [], _ => by
    rw [Memory.write]
    split
    · rename_i hb
      rw [hb, Memory.read_nil]
    · simp [Memory.read]
  | _, (a, c) :: m, hm => by
    rw [Memory.wfFrom_cons] at hm
    obtain ⟨_, _, h3⟩ := hm
    rw [Memory.write]
    split
    · rename_i hia
      split
      · rename_i hb
        rw [Memory.read, if_neg (Nat.ne_of_lt hia), hb]
        exact Memory.read_lt_wfFrom h3 (by omega)
      · simp [Memory.read]
    · split
      · rename_i hia
        split
        · rename_i hb
          rw [hb]
          exact Memory.read_lt_wfFrom h3 (by omega)
        · simp [Memory.read]
      · rename_i hia
        rw [Memory.read, if_neg hia]
        exact Memory.read_write_same h3

/-- A write leaves every other entry alone. -/
theorem Memory.read_write_other {i j : Nat} {b : Byte} (hij : j ≠ i) : ∀ (m : Memory),
    Memory.read (Memory.write m i b) j = Memory.read m j
  | [] => by
    rw [Memory.write]
    split <;> simp [Memory.read, hij]
  | (a, c) :: m => by
    rw [Memory.write]
    split
    · split
      · rfl
      · simp [Memory.read, hij]
    · split
      · rename_i hia
        subst hia
        split <;> simp [Memory.read, hij]
      · simp only [Memory.read, Memory.read_write_other hij m]

theorem Memory.read_write {m : Memory} (h : m.wf = true) (i j : Nat) (b : Byte) :
    Memory.read (Memory.write m i b) j = if j = i then b else Memory.read m j := by
  split
  · rename_i hji
    rw [hji, Memory.read_write_same h]
  · rename_i hji
    exact Memory.read_write_other hji m

/-- Entry `j` after a byte sequence was written from entry `i` on. -/
theorem Memory.read_writeFrom : ∀ {bs : List Byte} {m : Memory} {i : Nat} (j : Nat), m.wf = true →
    Memory.read (Memory.writeFrom m i bs) j = if i ≤ j ∧ j < i + bs.length then bs.getD (j - i) 0 else Memory.read m j
  | [], m, i, j, _ => by
    rw [if_neg (by simp)]
    rfl
  | b :: bs, m, i, j, h => by
    rw [Memory.writeFrom, Memory.read_writeFrom j (Memory.wf_write h i b), Memory.read_write h]
    by_cases hj : j = i
    · subst hj
      simp
    · by_cases h1 : i + 1 ≤ j ∧ j < i + 1 + bs.length
      · have h2 : i ≤ j ∧ j < i + (b :: bs).length := ⟨by omega, by simp; omega⟩
        rw [if_pos h1, if_pos h2]
        obtain ⟨k, rfl⟩ : ∃ k, j = i + 1 + k := ⟨j - (i + 1), by omega⟩
        have e : i + 1 + k - i = k + 1 := by omega
        simp [e]
      · have h2 : ¬ (i ≤ j ∧ j < i + (b :: bs).length) := by simp; omega
        rw [if_neg h1, if_neg h2, if_neg hj]

theorem Memory.below_cons {n a : Nat} {b : Byte} {m : Memory} :
    Memory.below n ((a, b) :: m) = true ↔ a < n ∧ Memory.below n m = true := by
  simp [Memory.below]

theorem Memory.below_write {n i : Nat} {b : Byte} (hi : i < n) : ∀ {m : Memory}, m.below n = true →
    (Memory.write m i b).below n = true
  | [], _ => by
    rw [Memory.write]
    split
    · rfl
    · exact Memory.below_cons.2 ⟨hi, rfl⟩
  | (a, c) :: m, h => by
    obtain ⟨h1, h2⟩ := Memory.below_cons.1 h
    rw [Memory.write]
    split
    · split
      · exact h
      · exact Memory.below_cons.2 ⟨hi, h⟩
    · split
      · split
        · exact h2
        · exact Memory.below_cons.2 ⟨hi, h2⟩
      · exact Memory.below_cons.2 ⟨h1, Memory.below_write hi h2⟩

theorem Memory.below_writeFrom {n : Nat} : ∀ {bs : List Byte} {m : Memory} {i : Nat}, i + bs.length ≤ n →
    m.below n = true → (Memory.writeFrom m i bs).below n = true
  | [], _, _, _, h => h
  | b :: bs, m, i, hi, h => by
    rw [List.length_cons] at hi
    exact Memory.below_writeFrom (m := Memory.write m i b) (by omega) (Memory.below_write (by omega) h)

@[simp] theorem Memory.length_slice (m : Memory) (i n : Nat) : (m.slice i n).length = n := by
  simp [Memory.slice]

theorem Memory.getD_slice (m : Memory) {i n k : Nat} (h : k < n) : (m.slice i n).getD k 0 = m.read (i + k) := by
  simp [Memory.slice, h]

/-- A slice without its first `k` entries starts `k` entries later. -/
theorem Memory.drop_slice (m : Memory) (i n k : Nat) : (m.slice i n).drop k = m.slice (i + k) (n - k) := by
  apply List.ext_getElem
  · simp
  · intro j h1 h2
    simp [Memory.slice, Nat.add_assoc]

theorem Memory.take_slice (m : Memory) {i n k : Nat} (h : k ≤ n) : (m.slice i n).take k = m.slice i k := by
  apply List.ext_getElem
  · simp [h]
  · intro j h1 h2
    simp [Memory.slice]

end Sys2Proof.Machine
end

