-- ==== Sys2Proof/Laws/State.lean ====
section
/-! SUPPORT. One lemma per field of State for each shared record update (one group per update), all true by rfl. -/

namespace Sys2Proof.Machine

@[simp] theorem raiseHostError_argAddr (e : HostErr) (s : State) : (raiseHostError e s).argAddr = s.argAddr := rfl
@[simp] theorem raiseHostError_argLen (e : HostErr) (s : State) : (raiseHostError e s).argLen = s.argLen := rfl
@[simp] theorem raiseHostError_argBaud (e : HostErr) (s : State) : (raiseHostError e s).argBaud = s.argBaud := rfl
@[simp] theorem raiseHostError_argFtype (e : HostErr) (s : State) : (raiseHostError e s).argFtype = s.argFtype := rfl
@[simp] theorem raiseHostError_argJump (e : HostErr) (s : State) : (raiseHostError e s).argJump = s.argJump := rfl
@[simp] theorem raiseHostError_pbufLen (e : HostErr) (s : State) : (raiseHostError e s).pbufLen = s.pbufLen := rfl
@[simp] theorem raiseHostError_pbuf (e : HostErr) (s : State) : (raiseHostError e s).pbuf = s.pbuf := rfl
@[simp] theorem raiseHostError_rxState (e : HostErr) (s : State) : (raiseHostError e s).rxState = s.rxState := rfl
@[simp] theorem raiseHostError_rspDone (e : HostErr) (s : State) : (raiseHostError e s).rspDone = s.rspDone := rfl
@[simp] theorem raiseHostError_rspValid (e : HostErr) (s : State) : (raiseHostError e s).rspValid = s.rspValid := rfl
@[simp] theorem raiseHostError_statusValid (e : HostErr) (s : State) : (raiseHostError e s).statusValid = s.statusValid := rfl
@[simp] theorem raiseHostError_chipIdValid (e : HostErr) (s : State) : (raiseHostError e s).chipIdValid = s.chipIdValid := rfl
@[simp] theorem raiseHostError_flashIdValid (e : HostErr) (s : State) : (raiseHostError e s).flashIdValid = s.flashIdValid := rfl
@[simp] theorem raiseHostError_decErr (e : HostErr) (s : State) : (raiseHostError e s).decErr = s.decErr := rfl
@[simp] theorem raiseHostError_hostErr (e : HostErr) (s : State) : (raiseHostError e s).hostErr = e := rfl
@[simp] theorem raiseHostError_rxOverrun (e : HostErr) (s : State) : (raiseHostError e s).rxOverrun = s.rxOverrun := rfl
@[simp] theorem raiseHostError_rspLength (e : HostErr) (s : State) : (raiseHostError e s).rspLength = s.rspLength := rfl
@[simp] theorem raiseHostError_rspType (e : HostErr) (s : State) : (raiseHostError e s).rspType = s.rspType := rfl
@[simp] theorem raiseHostError_rspStatus (e : HostErr) (s : State) : (raiseHostError e s).rspStatus = s.rspStatus := rfl
@[simp] theorem raiseHostError_rspDataLen (e : HostErr) (s : State) : (raiseHostError e s).rspDataLen = s.rspDataLen := rfl
@[simp] theorem raiseHostError_rspChecksum (e : HostErr) (s : State) : (raiseHostError e s).rspChecksum = s.rspChecksum := rfl
@[simp] theorem raiseHostError_rspCalcChecksum (e : HostErr) (s : State) : (raiseHostError e s).rspCalcChecksum = s.rspCalcChecksum := rfl
@[simp] theorem raiseHostError_rspKind (e : HostErr) (s : State) : (raiseHostError e s).rspKind = s.rspKind := rfl
@[simp] theorem raiseHostError_chipId (e : HostErr) (s : State) : (raiseHostError e s).chipId = s.chipId := rfl
@[simp] theorem raiseHostError_flashId (e : HostErr) (s : State) : (raiseHostError e s).flashId = s.flashId := rfl
@[simp] theorem raiseHostError_rxCount (e : HostErr) (s : State) : (raiseHostError e s).rxCount = s.rxCount := rfl
@[simp] theorem raiseHostError_rxqCount (e : HostErr) (s : State) : (raiseHostError e s).rxqCount = s.rxqCount := rfl
@[simp] theorem raiseHostError_txLastLen (e : HostErr) (s : State) : (raiseHostError e s).txLastLen = s.txLastLen := rfl
@[simp] theorem raiseHostError_txLastCsum (e : HostErr) (s : State) : (raiseHostError e s).txLastCsum = s.txLastCsum := rfl
@[simp] theorem raiseHostError_rxbuf (e : HostErr) (s : State) : (raiseHostError e s).rxbuf = s.rxbuf := rfl
@[simp] theorem raiseHostError_rspData (e : HostErr) (s : State) : (raiseHostError e s).rspData = s.rspData := rfl
@[simp] theorem raiseHostError_rxq (e : HostErr) (s : State) : (raiseHostError e s).rxq = s.rxq := rfl
@[simp] theorem raiseHostError_txs (e : HostErr) (s : State) : (raiseHostError e s).txs = s.txs := rfl
@[simp] theorem raiseHostError_busReadData (e : HostErr) (s : State) : (raiseHostError e s).busReadData = s.busReadData := rfl
@[simp] theorem raiseHostError_pending (e : HostErr) (s : State) : (raiseHostError e s).pending = s.pending := rfl

@[simp] theorem emit_argAddr (t : Byte) (p : List Byte) (s : State) : (emit t p s).argAddr = s.argAddr := rfl
@[simp] theorem emit_argLen (t : Byte) (p : List Byte) (s : State) : (emit t p s).argLen = s.argLen := rfl
@[simp] theorem emit_argBaud (t : Byte) (p : List Byte) (s : State) : (emit t p s).argBaud = s.argBaud := rfl
@[simp] theorem emit_argFtype (t : Byte) (p : List Byte) (s : State) : (emit t p s).argFtype = s.argFtype := rfl
@[simp] theorem emit_argJump (t : Byte) (p : List Byte) (s : State) : (emit t p s).argJump = s.argJump := rfl
@[simp] theorem emit_pbufLen (t : Byte) (p : List Byte) (s : State) : (emit t p s).pbufLen = s.pbufLen := rfl
@[simp] theorem emit_pbuf (t : Byte) (p : List Byte) (s : State) : (emit t p s).pbuf = s.pbuf := rfl
@[simp] theorem emit_rxState (t : Byte) (p : List Byte) (s : State) : (emit t p s).rxState = s.rxState := rfl
@[simp] theorem emit_rspDone (t : Byte) (p : List Byte) (s : State) : (emit t p s).rspDone = s.rspDone := rfl
@[simp] theorem emit_rspValid (t : Byte) (p : List Byte) (s : State) : (emit t p s).rspValid = s.rspValid := rfl
@[simp] theorem emit_statusValid (t : Byte) (p : List Byte) (s : State) : (emit t p s).statusValid = s.statusValid := rfl
@[simp] theorem emit_chipIdValid (t : Byte) (p : List Byte) (s : State) : (emit t p s).chipIdValid = s.chipIdValid := rfl
@[simp] theorem emit_flashIdValid (t : Byte) (p : List Byte) (s : State) : (emit t p s).flashIdValid = s.flashIdValid := rfl
@[simp] theorem emit_decErr (t : Byte) (p : List Byte) (s : State) : (emit t p s).decErr = s.decErr := rfl
@[simp] theorem emit_hostErr (t : Byte) (p : List Byte) (s : State) : (emit t p s).hostErr = .none := rfl
@[simp] theorem emit_rxOverrun (t : Byte) (p : List Byte) (s : State) : (emit t p s).rxOverrun = s.rxOverrun := rfl
@[simp] theorem emit_rspLength (t : Byte) (p : List Byte) (s : State) : (emit t p s).rspLength = s.rspLength := rfl
@[simp] theorem emit_rspType (t : Byte) (p : List Byte) (s : State) : (emit t p s).rspType = s.rspType := rfl
@[simp] theorem emit_rspStatus (t : Byte) (p : List Byte) (s : State) : (emit t p s).rspStatus = s.rspStatus := rfl
@[simp] theorem emit_rspDataLen (t : Byte) (p : List Byte) (s : State) : (emit t p s).rspDataLen = s.rspDataLen := rfl
@[simp] theorem emit_rspChecksum (t : Byte) (p : List Byte) (s : State) : (emit t p s).rspChecksum = s.rspChecksum := rfl
@[simp] theorem emit_rspCalcChecksum (t : Byte) (p : List Byte) (s : State) : (emit t p s).rspCalcChecksum = s.rspCalcChecksum := rfl
@[simp] theorem emit_rspKind (t : Byte) (p : List Byte) (s : State) : (emit t p s).rspKind = s.rspKind := rfl
@[simp] theorem emit_chipId (t : Byte) (p : List Byte) (s : State) : (emit t p s).chipId = s.chipId := rfl
@[simp] theorem emit_flashId (t : Byte) (p : List Byte) (s : State) : (emit t p s).flashId = s.flashId := rfl
@[simp] theorem emit_rxCount (t : Byte) (p : List Byte) (s : State) : (emit t p s).rxCount = s.rxCount := rfl
@[simp] theorem emit_rxqCount (t : Byte) (p : List Byte) (s : State) : (emit t p s).rxqCount = s.rxqCount := rfl
@[simp] theorem emit_txLastLen (t : Byte) (p : List Byte) (s : State) : (emit t p s).txLastLen = BitVec.ofNat 9 (encodeFrame t p).length := rfl
@[simp] theorem emit_txLastCsum (t : Byte) (p : List Byte) (s : State) : (emit t p s).txLastCsum = (encodeFrame t p).getD ((encodeFrame t p).length - 1) 0 := rfl
@[simp] theorem emit_rxbuf (t : Byte) (p : List Byte) (s : State) : (emit t p s).rxbuf = s.rxbuf := rfl
@[simp] theorem emit_rspData (t : Byte) (p : List Byte) (s : State) : (emit t p s).rspData = s.rspData := rfl
@[simp] theorem emit_rxq (t : Byte) (p : List Byte) (s : State) : (emit t p s).rxq = s.rxq := rfl
@[simp] theorem emit_txs (t : Byte) (p : List Byte) (s : State) : (emit t p s).txs = s.txs ++ encodeFrame t p := rfl
@[simp] theorem emit_busReadData (t : Byte) (p : List Byte) (s : State) : (emit t p s).busReadData = s.busReadData := rfl
@[simp] theorem emit_pending (t : Byte) (p : List Byte) (s : State) : (emit t p s).pending = s.pending := rfl

@[simp] theorem clearResponse_argAddr (s : State) : (clearResponse s).argAddr = s.argAddr := rfl
@[simp] theorem clearResponse_argLen (s : State) : (clearResponse s).argLen = s.argLen := rfl
@[simp] theorem clearResponse_argBaud (s : State) : (clearResponse s).argBaud = s.argBaud := rfl
@[simp] theorem clearResponse_argFtype (s : State) : (clearResponse s).argFtype = s.argFtype := rfl
@[simp] theorem clearResponse_argJump (s : State) : (clearResponse s).argJump = s.argJump := rfl
@[simp] theorem clearResponse_pbufLen (s : State) : (clearResponse s).pbufLen = s.pbufLen := rfl
@[simp] theorem clearResponse_pbuf (s : State) : (clearResponse s).pbuf = s.pbuf := rfl
@[simp] theorem clearResponse_rxState (s : State) : (clearResponse s).rxState = s.rxState := rfl
@[simp] theorem clearResponse_rspDone (s : State) : (clearResponse s).rspDone = false := rfl
@[simp] theorem clearResponse_rspValid (s : State) : (clearResponse s).rspValid = false := rfl
@[simp] theorem clearResponse_statusValid (s : State) : (clearResponse s).statusValid = false := rfl
@[simp] theorem clearResponse_chipIdValid (s : State) : (clearResponse s).chipIdValid = false := rfl
@[simp] theorem clearResponse_flashIdValid (s : State) : (clearResponse s).flashIdValid = false := rfl
@[simp] theorem clearResponse_decErr (s : State) : (clearResponse s).decErr = .none := rfl
@[simp] theorem clearResponse_hostErr (s : State) : (clearResponse s).hostErr = s.hostErr := rfl
@[simp] theorem clearResponse_rxOverrun (s : State) : (clearResponse s).rxOverrun = s.rxOverrun := rfl
@[simp] theorem clearResponse_rspLength (s : State) : (clearResponse s).rspLength = 0 := rfl
@[simp] theorem clearResponse_rspType (s : State) : (clearResponse s).rspType = 0 := rfl
@[simp] theorem clearResponse_rspStatus (s : State) : (clearResponse s).rspStatus = 0 := rfl
@[simp] theorem clearResponse_rspDataLen (s : State) : (clearResponse s).rspDataLen = 0 := rfl
@[simp] theorem clearResponse_rspChecksum (s : State) : (clearResponse s).rspChecksum = 0 := rfl
@[simp] theorem clearResponse_rspCalcChecksum (s : State) : (clearResponse s).rspCalcChecksum = 0 := rfl
@[simp] theorem clearResponse_rspKind (s : State) : (clearResponse s).rspKind = .generic := rfl
@[simp] theorem clearResponse_chipId (s : State) : (clearResponse s).chipId = 0 := rfl
@[simp] theorem clearResponse_flashId (s : State) : (clearResponse s).flashId = 0 := rfl
@[simp] theorem clearResponse_rxCount (s : State) : (clearResponse s).rxCount = 0 := rfl
@[simp] theorem clearResponse_rxqCount (s : State) : (clearResponse s).rxqCount = s.rxqCount := rfl
@[simp] theorem clearResponse_txLastLen (s : State) : (clearResponse s).txLastLen = s.txLastLen := rfl
@[simp] theorem clearResponse_txLastCsum (s : State) : (clearResponse s).txLastCsum = s.txLastCsum := rfl
@[simp] theorem clearResponse_rxbuf (s : State) : (clearResponse s).rxbuf = [] := rfl
@[simp] theorem clearResponse_rspData (s : State) : (clearResponse s).rspData = [] := rfl
@[simp] theorem clearResponse_rxq (s : State) : (clearResponse s).rxq = s.rxq := rfl
@[simp] theorem clearResponse_txs (s : State) : (clearResponse s).txs = s.txs := rfl
@[simp] theorem clearResponse_busReadData (s : State) : (clearResponse s).busReadData = s.busReadData := rfl
@[simp] theorem clearResponse_pending (s : State) : (clearResponse s).pending = s.pending := rfl

@[simp] theorem setRxq_argAddr (q : List Byte) (s : State) : (setRxq q s).argAddr = s.argAddr := rfl
@[simp] theorem setRxq_argLen (q : List Byte) (s : State) : (setRxq q s).argLen = s.argLen := rfl
@[simp] theorem setRxq_argBaud (q : List Byte) (s : State) : (setRxq q s).argBaud = s.argBaud := rfl
@[simp] theorem setRxq_argFtype (q : List Byte) (s : State) : (setRxq q s).argFtype = s.argFtype := rfl
@[simp] theorem setRxq_argJump (q : List Byte) (s : State) : (setRxq q s).argJump = s.argJump := rfl
@[simp] theorem setRxq_pbufLen (q : List Byte) (s : State) : (setRxq q s).pbufLen = s.pbufLen := rfl
@[simp] theorem setRxq_pbuf (q : List Byte) (s : State) : (setRxq q s).pbuf = s.pbuf := rfl
@[simp] theorem setRxq_rxState (q : List Byte) (s : State) : (setRxq q s).rxState = s.rxState := rfl
@[simp] theorem setRxq_rspDone (q : List Byte) (s : State) : (setRxq q s).rspDone = s.rspDone := rfl
@[simp] theorem setRxq_rspValid (q : List Byte) (s : State) : (setRxq q s).rspValid = s.rspValid := rfl
@[simp] theorem setRxq_statusValid (q : List Byte) (s : State) : (setRxq q s).statusValid = s.statusValid := rfl
@[simp] theorem setRxq_chipIdValid (q : List Byte) (s : State) : (setRxq q s).chipIdValid = s.chipIdValid := rfl
@[simp] theorem setRxq_flashIdValid (q : List Byte) (s : State) : (setRxq q s).flashIdValid = s.flashIdValid := rfl
@[simp] theorem setRxq_decErr (q : List Byte) (s : State) : (setRxq q s).decErr = s.decErr := rfl
@[simp] theorem setRxq_hostErr (q : List Byte) (s : State) : (setRxq q s).hostErr = s.hostErr := rfl
@[simp] theorem setRxq_rxOverrun (q : List Byte) (s : State) : (setRxq q s).rxOverrun = s.rxOverrun := rfl
@[simp] theorem setRxq_rspLength (q : List Byte) (s : State) : (setRxq q s).rspLength = s.rspLength := rfl
@[simp] theorem setRxq_rspType (q : List Byte) (s : State) : (setRxq q s).rspType = s.rspType := rfl
@[simp] theorem setRxq_rspStatus (q : List Byte) (s : State) : (setRxq q s).rspStatus = s.rspStatus := rfl
@[simp] theorem setRxq_rspDataLen (q : List Byte) (s : State) : (setRxq q s).rspDataLen = s.rspDataLen := rfl
@[simp] theorem setRxq_rspChecksum (q : List Byte) (s : State) : (setRxq q s).rspChecksum = s.rspChecksum := rfl
@[simp] theorem setRxq_rspCalcChecksum (q : List Byte) (s : State) : (setRxq q s).rspCalcChecksum = s.rspCalcChecksum := rfl
@[simp] theorem setRxq_rspKind (q : List Byte) (s : State) : (setRxq q s).rspKind = s.rspKind := rfl
@[simp] theorem setRxq_chipId (q : List Byte) (s : State) : (setRxq q s).chipId = s.chipId := rfl
@[simp] theorem setRxq_flashId (q : List Byte) (s : State) : (setRxq q s).flashId = s.flashId := rfl
@[simp] theorem setRxq_rxCount (q : List Byte) (s : State) : (setRxq q s).rxCount = s.rxCount := rfl
@[simp] theorem setRxq_rxqCount (q : List Byte) (s : State) : (setRxq q s).rxqCount = rxqCountOf q.length := rfl
@[simp] theorem setRxq_txLastLen (q : List Byte) (s : State) : (setRxq q s).txLastLen = s.txLastLen := rfl
@[simp] theorem setRxq_txLastCsum (q : List Byte) (s : State) : (setRxq q s).txLastCsum = s.txLastCsum := rfl
@[simp] theorem setRxq_rxbuf (q : List Byte) (s : State) : (setRxq q s).rxbuf = s.rxbuf := rfl
@[simp] theorem setRxq_rspData (q : List Byte) (s : State) : (setRxq q s).rspData = s.rspData := rfl
@[simp] theorem setRxq_rxq (q : List Byte) (s : State) : (setRxq q s).rxq = q := rfl
@[simp] theorem setRxq_txs (q : List Byte) (s : State) : (setRxq q s).txs = s.txs := rfl
@[simp] theorem setRxq_busReadData (q : List Byte) (s : State) : (setRxq q s).busReadData = s.busReadData := rfl
@[simp] theorem setRxq_pending (q : List Byte) (s : State) : (setRxq q s).pending = s.pending := rfl

@[simp] theorem endReception_argAddr (s : State) : (endReception s).argAddr = s.argAddr := rfl
@[simp] theorem endReception_argLen (s : State) : (endReception s).argLen = s.argLen := rfl
@[simp] theorem endReception_argBaud (s : State) : (endReception s).argBaud = s.argBaud := rfl
@[simp] theorem endReception_argFtype (s : State) : (endReception s).argFtype = s.argFtype := rfl
@[simp] theorem endReception_argJump (s : State) : (endReception s).argJump = s.argJump := rfl
@[simp] theorem endReception_pbufLen (s : State) : (endReception s).pbufLen = s.pbufLen := rfl
@[simp] theorem endReception_pbuf (s : State) : (endReception s).pbuf = s.pbuf := rfl
@[simp] theorem endReception_rxState (s : State) : (endReception s).rxState = .idle := rfl
@[simp] theorem endReception_rspDone (s : State) : (endReception s).rspDone = true := rfl
@[simp] theorem endReception_rspValid (s : State) : (endReception s).rspValid = s.rspValid := rfl
@[simp] theorem endReception_statusValid (s : State) : (endReception s).statusValid = s.statusValid := rfl
@[simp] theorem endReception_chipIdValid (s : State) : (endReception s).chipIdValid = s.chipIdValid := rfl
@[simp] theorem endReception_flashIdValid (s : State) : (endReception s).flashIdValid = s.flashIdValid := rfl
@[simp] theorem endReception_decErr (s : State) : (endReception s).decErr = s.decErr := rfl
@[simp] theorem endReception_hostErr (s : State) : (endReception s).hostErr = s.hostErr := rfl
@[simp] theorem endReception_rxOverrun (s : State) : (endReception s).rxOverrun = s.rxOverrun := rfl
@[simp] theorem endReception_rspLength (s : State) : (endReception s).rspLength = s.rspLength := rfl
@[simp] theorem endReception_rspType (s : State) : (endReception s).rspType = s.rspType := rfl
@[simp] theorem endReception_rspStatus (s : State) : (endReception s).rspStatus = s.rspStatus := rfl
@[simp] theorem endReception_rspDataLen (s : State) : (endReception s).rspDataLen = s.rspDataLen := rfl
@[simp] theorem endReception_rspChecksum (s : State) : (endReception s).rspChecksum = s.rspChecksum := rfl
@[simp] theorem endReception_rspCalcChecksum (s : State) : (endReception s).rspCalcChecksum = s.rspCalcChecksum := rfl
@[simp] theorem endReception_rspKind (s : State) : (endReception s).rspKind = s.rspKind := rfl
@[simp] theorem endReception_chipId (s : State) : (endReception s).chipId = s.chipId := rfl
@[simp] theorem endReception_flashId (s : State) : (endReception s).flashId = s.flashId := rfl
@[simp] theorem endReception_rxCount (s : State) : (endReception s).rxCount = s.rxCount := rfl
@[simp] theorem endReception_rxqCount (s : State) : (endReception s).rxqCount = s.rxqCount := rfl
@[simp] theorem endReception_txLastLen (s : State) : (endReception s).txLastLen = s.txLastLen := rfl
@[simp] theorem endReception_txLastCsum (s : State) : (endReception s).txLastCsum = s.txLastCsum := rfl
@[simp] theorem endReception_rxbuf (s : State) : (endReception s).rxbuf = s.rxbuf := rfl
@[simp] theorem endReception_rspData (s : State) : (endReception s).rspData = s.rspData := rfl
@[simp] theorem endReception_rxq (s : State) : (endReception s).rxq = s.rxq := rfl
@[simp] theorem endReception_txs (s : State) : (endReception s).txs = s.txs := rfl
@[simp] theorem endReception_busReadData (s : State) : (endReception s).busReadData = s.busReadData := rfl
@[simp] theorem endReception_pending (s : State) : (endReception s).pending = s.pending := rfl

@[simp] theorem raiseDecodeError_argAddr (e : DecErr) (s : State) : (raiseDecodeError e s).argAddr = s.argAddr := rfl
@[simp] theorem raiseDecodeError_argLen (e : DecErr) (s : State) : (raiseDecodeError e s).argLen = s.argLen := rfl
@[simp] theorem raiseDecodeError_argBaud (e : DecErr) (s : State) : (raiseDecodeError e s).argBaud = s.argBaud := rfl
@[simp] theorem raiseDecodeError_argFtype (e : DecErr) (s : State) : (raiseDecodeError e s).argFtype = s.argFtype := rfl
@[simp] theorem raiseDecodeError_argJump (e : DecErr) (s : State) : (raiseDecodeError e s).argJump = s.argJump := rfl
@[simp] theorem raiseDecodeError_pbufLen (e : DecErr) (s : State) : (raiseDecodeError e s).pbufLen = s.pbufLen := rfl
@[simp] theorem raiseDecodeError_pbuf (e : DecErr) (s : State) : (raiseDecodeError e s).pbuf = s.pbuf := rfl
@[simp] theorem raiseDecodeError_rxState (e : DecErr) (s : State) : (raiseDecodeError e s).rxState = s.rxState := rfl
@[simp] theorem raiseDecodeError_rspDone (e : DecErr) (s : State) : (raiseDecodeError e s).rspDone = s.rspDone := rfl
@[simp] theorem raiseDecodeError_rspValid (e : DecErr) (s : State) : (raiseDecodeError e s).rspValid = false := rfl
@[simp] theorem raiseDecodeError_statusValid (e : DecErr) (s : State) : (raiseDecodeError e s).statusValid = s.statusValid := rfl
@[simp] theorem raiseDecodeError_chipIdValid (e : DecErr) (s : State) : (raiseDecodeError e s).chipIdValid = s.chipIdValid := rfl
@[simp] theorem raiseDecodeError_flashIdValid (e : DecErr) (s : State) : (raiseDecodeError e s).flashIdValid = s.flashIdValid := rfl
@[simp] theorem raiseDecodeError_decErr (e : DecErr) (s : State) : (raiseDecodeError e s).decErr = e := rfl
@[simp] theorem raiseDecodeError_hostErr (e : DecErr) (s : State) : (raiseDecodeError e s).hostErr = s.hostErr := rfl
@[simp] theorem raiseDecodeError_rxOverrun (e : DecErr) (s : State) : (raiseDecodeError e s).rxOverrun = s.rxOverrun := rfl
@[simp] theorem raiseDecodeError_rspLength (e : DecErr) (s : State) : (raiseDecodeError e s).rspLength = s.rspLength := rfl
@[simp] theorem raiseDecodeError_rspType (e : DecErr) (s : State) : (raiseDecodeError e s).rspType = s.rspType := rfl
@[simp] theorem raiseDecodeError_rspStatus (e : DecErr) (s : State) : (raiseDecodeError e s).rspStatus = s.rspStatus := rfl
@[simp] theorem raiseDecodeError_rspDataLen (e : DecErr) (s : State) : (raiseDecodeError e s).rspDataLen = s.rspDataLen := rfl
@[simp] theorem raiseDecodeError_rspChecksum (e : DecErr) (s : State) : (raiseDecodeError e s).rspChecksum = s.rspChecksum := rfl
@[simp] theorem raiseDecodeError_rspCalcChecksum (e : DecErr) (s : State) : (raiseDecodeError e s).rspCalcChecksum = s.rspCalcChecksum := rfl
@[simp] theorem raiseDecodeError_rspKind (e : DecErr) (s : State) : (raiseDecodeError e s).rspKind = s.rspKind := rfl
@[simp] theorem raiseDecodeError_chipId (e : DecErr) (s : State) : (raiseDecodeError e s).chipId = s.chipId := rfl
@[simp] theorem raiseDecodeError_flashId (e : DecErr) (s : State) : (raiseDecodeError e s).flashId = s.flashId := rfl
@[simp] theorem raiseDecodeError_rxCount (e : DecErr) (s : State) : (raiseDecodeError e s).rxCount = s.rxCount := rfl
@[simp] theorem raiseDecodeError_rxqCount (e : DecErr) (s : State) : (raiseDecodeError e s).rxqCount = s.rxqCount := rfl
@[simp] theorem raiseDecodeError_txLastLen (e : DecErr) (s : State) : (raiseDecodeError e s).txLastLen = s.txLastLen := rfl
@[simp] theorem raiseDecodeError_txLastCsum (e : DecErr) (s : State) : (raiseDecodeError e s).txLastCsum = s.txLastCsum := rfl
@[simp] theorem raiseDecodeError_rxbuf (e : DecErr) (s : State) : (raiseDecodeError e s).rxbuf = s.rxbuf := rfl
@[simp] theorem raiseDecodeError_rspData (e : DecErr) (s : State) : (raiseDecodeError e s).rspData = s.rspData := rfl
@[simp] theorem raiseDecodeError_rxq (e : DecErr) (s : State) : (raiseDecodeError e s).rxq = s.rxq := rfl
@[simp] theorem raiseDecodeError_txs (e : DecErr) (s : State) : (raiseDecodeError e s).txs = s.txs := rfl
@[simp] theorem raiseDecodeError_busReadData (e : DecErr) (s : State) : (raiseDecodeError e s).busReadData = s.busReadData := rfl
@[simp] theorem raiseDecodeError_pending (e : DecErr) (s : State) : (raiseDecodeError e s).pending = s.pending := rfl

end Sys2Proof.Machine
end

