-- ==== Sys2Proof/Laws/Ops.lean ====
section
/-! SUPPORT. What each shared operation can do, said once: XOR sums, emitting, the parse rules, the end of a frame, the
receiver's steps, storing a register, running a command. -/

namespace Sys2Proof.Machine

/-! ### XOR sums -/

theorem xor_foldl_acc (bs : List Byte) (a : Byte) : bs.foldl (· ^^^ ·) a = a ^^^ bs.foldl (· ^^^ ·) 0 := by
  induction bs generalizing a with
  | nil => simp
  | cons b bs ih =>
    rw [List.foldl_cons, List.foldl_cons, ih, ih (0 ^^^ b), BitVec.xor_assoc]
    simp

@[simp] theorem xorBytes_nil : xorBytes [] = 0 := rfl

@[simp] theorem xorBytes_cons (b : Byte) (bs : List Byte) : xorBytes (b :: bs) = b ^^^ xorBytes bs := by
  rw [xorBytes, List.foldl_cons, xor_foldl_acc, xorBytes]
  simp

@[simp] theorem xorBytes_append (xs ys : List Byte) : xorBytes (xs ++ ys) = xorBytes xs ^^^ xorBytes ys := by
  induction xs with
  | nil => simp
  | cons x xs ih => rw [List.cons_append, xorBytes_cons, xorBytes_cons, ih, BitVec.xor_assoc]

theorem xorBytes_eq_foldr (bs : List Byte) : xorBytes bs = bs.foldr (· ^^^ ·) 0 := by
  induction bs with
  | nil => rfl
  | cons b bs ih => rw [xorBytes_cons, ih, List.foldr_cons]

/-! ### Frames and emitting -/

@[simp] theorem length_encodeFrame (t : Byte) (p : List Byte) : (encodeFrame t p).length = p.length + 3 := by
  simp [encodeFrame]

/-- The last byte of a frame is its checksum. -/
theorem getD_last_encodeFrame (t : Byte) (p : List Byte) :
    (encodeFrame t p).getD (p.length + 2) 0 = csum t p := by
  rw [encodeFrame, List.getD_append_right _ _ _ _ (by simp)]
  simp

/-- What `emit` does to a state (R113). -/
theorem emit_eq (t : Byte) (p : List Byte) (s : State) :
    emit t p s = { s with
      txs := s.txs ++ encodeFrame t p, txLastLen := BitVec.ofNat 9 (p.length + 3), txLastCsum := csum t p,
      hostErr := .none } := by
  simp only [emit, length_encodeFrame,
    show p.length + 3 - 1 = p.length + 2 from rfl, getD_last_encodeFrame]

@[simp] theorem length_pbufBytes (s : State) : (pbufBytes s).length = s.pbufLen.toNat := by simp [pbufBytes]

@[simp] theorem length_receivedPayload (s : State) : (receivedPayload s).length = s.rspLength.toNat - 2 := by
  simp [receivedPayload]

/-! ### The response parser -/

/-- What a parse rule's common part does with a payload (R152, R154). -/
theorem parseCommon_eq (k : Kind) (p : List Byte) (s : State) :
    parseCommon k p s = { s with
      rspKind := k
      statusValid := !p.isEmpty
      rspStatus := p.headD s.rspStatus
      rspDataLen := BitVec.ofNat 8 (p.length - 1)
      rspData := s.rspData.writeFrom 0 p.tail } := by
  cases p <;> rfl

/-- `ParseChipId` writes the field and its flag, or nothing (R156). -/
theorem parseChipId_cases (data : List Byte) (s : State) :
    (∃ v, data.length = 4 ∧ parseChipId data s = { s with chipId := v, chipIdValid := true }) ∨
      (data.length ≠ 4 ∧ parseChipId data s = s) := by
  unfold parseChipId
  split
  · exact .inl ⟨_, rfl, rfl⟩
  · rename_i h
    refine .inr ⟨fun hl => ?_, rfl⟩
    match data, hl with
    | [a, b, c, d], _ => exact h a b c d rfl

/-- `ParseFlashId` writes the field and its flag, or nothing (R157). -/
theorem parseFlashId_cases (data : List Byte) (s : State) :
    (∃ v, data.length = 2 ∧ parseFlashId data s = { s with flashId := v, flashIdValid := true }) ∨
      (data.length ≠ 2 ∧ parseFlashId data s = s) := by
  unfold parseFlashId
  split
  · exact .inl ⟨_, rfl, rfl⟩
  · rename_i h
    refine .inr ⟨fun hl => ?_, rfl⟩
    match data, hl with
    | [a, b], _ => exact h a b rfl

/-- `Parse` is the common part, and possibly one identifier with the kind it belongs to (R152, R156-R159). -/
theorem parse_cases (t : Byte) (p : List Byte) (s : State) :
    parse t p s = parseCommon (responseKind t) p s ∨
      (∃ v, responseKind t = .chipId ∧
        parse t p s = { parseCommon .chipId p s with chipId := v, chipIdValid := true }) ∨
      (∃ v, responseKind t = .flashId ∧
        parse t p s = { parseCommon .flashId p s with flashId := v, flashIdValid := true }) := by
  unfold parse
  cases hk : responseKind t with
  | chipId =>
    rcases parseChipId_cases p.tail (parseCommon .chipId p s) with ⟨v, _, h⟩ | ⟨_, h⟩
    · exact .inr (.inl ⟨v, rfl, h⟩)
    · exact .inl h
  | flashId =>
    rcases parseFlashId_cases p.tail (parseCommon .flashId p s) with ⟨v, _, h⟩ | ⟨_, h⟩
    · exact .inr (.inr ⟨v, rfl, h⟩)
    · exact .inl h
  | baudAck => exact .inl rfl
  | generic => exact .inl rfl

/-- A response's kind is set, whatever else its rule does (R152). -/
@[simp] theorem parse_rspKind (t : Byte) (p : List Byte) (s : State) : (parse t p s).rspKind = responseKind t := by
  rcases parse_cases t p s with h | ⟨v, hk, h⟩ | ⟨v, hk, h⟩ <;> simp [parseCommon_eq, *]

/-! ### The end of a reception -/

/-- A decoded body is of the declared length, at least 2 (R116). -/
theorem decodeFrame_decoded {verify : Bool} {len : Byte} {raw : List Byte} {t : Byte} {p : List Byte} {c k : Byte}
    (h : decodeFrame verify len raw = .decoded t p c k) :
    2 ≤ len.toNat ∧ raw.length = len.toNat ∧ t = raw.getD 0 0 ∧ p = (raw.drop 1).take (len.toNat - 2) ∧
      c = raw.getD (len.toNat - 1) 0 ∧ k = csum t p ∧ (verify = true → k = c) := by
  unfold decodeFrame at h
  split at h
  · cases h
  · rename_i h2
    split at h
    · cases h
    · rename_i hl
      simp only at h
      split at h
      · cases h
      · rename_i hv
        cases h
        refine ⟨by omega, not_not.1 hl, rfl, rfl, rfl, rfl, fun hver => ?_⟩
        simpa [hver] using hv

/-- A checksum mismatch is reported only with VERIFY_RX_CHECKSUM (R118). -/
theorem decodeFrame_mismatch {verify : Bool} {len : Byte} {raw : List Byte} {t c k : Byte}
    (h : decodeFrame verify len raw = .checksumMismatch t c k) : verify = true := by
  unfold decodeFrame at h
  split at h
  · cases h
  · split at h
    · cases h
    · simp only at h
      split at h
      · rename_i hv
        exact (Bool.and_eq_true_iff.1 hv).2
      · cases h

/-- How a reception with a length byte ends (R125): with a response, or with one of the three decode errors. -/
theorem finishFrame_cases (p : Config.Params) (s : State) :
    (∃ t pl c k, decodeFrame p.verifyRxChecksum s.rspLength (s.rxbuf.slice 0 s.rxCount.toNat) = .decoded t pl c k ∧
        finishFrame p s = frameOk t pl c k (endReception s)) ∨
      finishFrame p s = raiseDecodeError .frameTooShort (endReception s) ∨
      finishFrame p s = raiseDecodeError .lengthMismatch (endReception s) ∨
      ∃ t c k, p.verifyRxChecksum = true ∧ finishFrame p s =
        { raiseDecodeError .checksumMismatch (endReception s) with
          rspType := t, rspChecksum := c, rspCalcChecksum := k } := by
  unfold finishFrame
  split
  · rename_i t pl c k h
    exact .inl ⟨t, pl, c, k, h, rfl⟩
  · exact .inr (.inl rfl)
  · exact .inr (.inr (.inl rfl))
  · rename_i t c k h
    exact .inr (.inr (.inr ⟨t, c, k, decodeFrame_mismatch h, rfl⟩))

/-! ### The receiver -/

/-- A turn of RX_STEP (R121): it passes, or it takes the oldest byte of RXQ in WAIT_LEN or COLLECT. -/
theorem receiverStep_cases (p : Config.Params) (s : State) :
    ((s.rxState = .idle ∨ s.rxq = []) ∧ receiverStep p s = s) ∨
      (∃ b q, s.rxq = b :: q ∧ s.rxState = .waitLen ∧ receiverStep p s = takeLength p b (setRxq q s)) ∨
      ∃ b q, s.rxq = b :: q ∧ s.rxState = .collect ∧ receiverStep p s = takeBody p b (setRxq q s) := by
  unfold receiverStep
  cases hq : s.rxq with
  | nil => exact .inl ⟨.inr rfl, rfl⟩
  | cons b q =>
    cases hs : s.rxState with
    | idle => exact .inl ⟨.inl rfl, rfl⟩
    | waitLen => exact .inr (.inl ⟨b, q, rfl, rfl, rfl⟩)
    | collect => exact .inr (.inr ⟨b, q, rfl, rfl, rfl⟩)

/-- The capacity test is R120's comparison with RXQ_DEPTH. -/
theorem rxqFull_iff (p : Config.Params) (n : Nat) : rxqFull p n = true ↔ p.rxqDepth = some n := by
  unfold rxqFull Config.Params.rxqDepth
  cases h : p.rxqExtra with
  | none => simp
  | some e =>
    simp only [Bool.and_eq_true, decide_eq_true_eq, Option.some.injEq, Option.map_some]
    omega

/-- RXQ_DEPTH is at least 256 (R8). -/
theorem rxqDepth_ge {p : Config.Params} {d : Nat} (h : p.rxqDepth = some d) : 256 ≤ d := by
  unfold Config.Params.rxqDepth at h
  cases he : p.rxqExtra with
  | none => simp [he] at h
  | some e =>
    simp [he] at h
    omega

/-- A delivered byte (R120). -/
theorem deliverByte_cases (p : Config.Params) (b : Byte) (s : State) :
    (p.rxqDepth = some s.rxq.length ∧
        deliverByte p b s = { s with rxOverrun := true, rxqCount := rxqCountOf s.rxq.length }) ∨
      (p.rxqDepth ≠ some s.rxq.length ∧ deliverByte p b s = setRxq (s.rxq ++ [b]) s) := by
  unfold deliverByte
  split
  · rename_i h
    exact .inl ⟨(rxqFull_iff p _).1 h, rfl⟩
  · rename_i h
    exact .inr ⟨fun hd => h ((rxqFull_iff p _).2 hd), rfl⟩

/-- A read timeout (R124). -/
theorem readTimeout_cases (p : Config.Params) (s : State) :
    ((s.rxState = .idle ∨ s.rxq ≠ []) ∧ readTimeout p s = s) ∨
      (s.rxState = .waitLen ∧ s.rxq = [] ∧ readTimeout p s = transportTimeout s) ∨
      (s.rxState = .collect ∧ s.rxq = [] ∧ readTimeout p s = finishFrame p s) := by
  unfold readTimeout
  split
  · rename_i h
    exact .inl ⟨h, rfl⟩
  · rename_i h
    obtain ⟨h1, h2⟩ := not_or.1 h
    split
    · rename_i hw
      exact .inr (.inl ⟨hw, not_not.1 h2, rfl⟩)
    · rename_i hw
      refine .inr (.inr ⟨?_, not_not.1 h2, rfl⟩)
      cases hs : s.rxState <;> simp_all

/-! ### The host's writes -/

/-- What storing a register can do (R201): one operand register, or one entry of PBUF. -/
theorem storeReg_cases {n : RegNum} {v : Word} {s t : State} (h : storeReg n v s = some t) :
    (∃ x, t = { s with argAddr := x }) ∨ (∃ x, t = { s with argLen := x }) ∨ (∃ x, t = { s with argBaud := x }) ∨
      (∃ x, t = { s with argFtype := x }) ∨ (∃ x, t = { s with argJump := x }) ∨ (∃ x, t = { s with pbufLen := x }) ∨
      ∃ i b, i < Config.maxPayload ∧ t = { s with pbuf := s.pbuf.write i b } := by
  unfold storeReg storeScalar at h
  split at h
  · split at h
    · cases h; exact .inl ⟨_, rfl⟩
    · cases h; exact .inr (.inl ⟨_, rfl⟩)
    · cases h; exact .inr (.inr (.inl ⟨_, rfl⟩))
    · cases h; exact .inr (.inr (.inr (.inl ⟨_, rfl⟩)))
    · cases h; exact .inr (.inr (.inr (.inr (.inl ⟨_, rfl⟩))))
    · cases h; exact .inr (.inr (.inr (.inr (.inr (.inl ⟨_, rfl⟩)))))
    · cases h
  · split at h
    · rename_i hk
      cases h
      refine .inr (.inr (.inr (.inr (.inr (.inr ⟨_, _, ?_, rfl⟩)))))
      rw [Config.maxPayload]
      omega
    · cases h

/-- What running an operation of CMD can do (R113, R129, R130, R224): an error in HOST_ERR, one whole frame, the arming of
an idle receiver, or the clearing of the receive side. -/
theorem runDecoded_cases (c : Command) (s : State) :
    (∃ e, e ≠ HostErr.none ∧ runDecoded c s = .next (raiseHostError e s)) ∨
      (∃ ty p, p.length ≤ Config.maxPayload ∧ runDecoded c s = .next (emit ty p s)) ∨
      (c = .recv ∧ s.rxState = .idle ∧
        runDecoded c s = .next { clearResponse s with rxState := .waitLen, hostErr := .none }) ∨
      (c = .clear ∧ runDecoded c s =
        .next { setRxq [] (clearResponse s) with rxState := .idle, rxOverrun := false, hostErr := .none }) := by
  cases c with
  | flashErase => exact .inr (.inl ⟨_, _, by simp [Config.maxPayload], rfl⟩)
  | flashWrite =>
    simp only [runDecoded, execFlashWrite]
    split
    · exact .inl ⟨_, by decide, rfl⟩
    · rename_i h
      refine .inr (.inl ⟨_, _, ?_, rfl⟩)
      simp only [Config.maxWriteData, Config.maxPayload] at *
      simp [flashWritePayload, le32]
      omega
  | flashRead => exact .inr (.inl ⟨_, _, by simp [readPayload, le32, le16, Config.maxPayload], rfl⟩)
  | ramRead => exact .inr (.inl ⟨_, _, by simp [readPayload, le32, le16, Config.maxPayload], rfl⟩)
  | flashId => exact .inr (.inl ⟨_, _, by simp [Config.maxPayload], rfl⟩)
  | changeBaud =>
    simp only [runDecoded, execChangeBaud]
    split
    · exact .inr (.inl ⟨_, _, by simp [Config.maxPayload], rfl⟩)
    · exact .inl ⟨_, by decide, rfl⟩
  | selectFlashType =>
    exact .inr (.inl ⟨_, _, by simp [selectFlashTypePayload, le32, Config.maxPayload], rfl⟩)
  | chipId => exact .inr (.inl ⟨_, _, by simp [Config.maxPayload], rfl⟩)
  | encodeRaw t =>
    simp only [runDecoded, execEncodeRaw]
    split
    · exact .inl ⟨_, by decide, rfl⟩
    · rename_i h
      exact .inr (.inl ⟨_, _, by simpa using h, rfl⟩)
  | recv =>
    simp only [runDecoded, execRecv]
    split
    · exact .inl ⟨_, by decide, rfl⟩
    · rename_i h
      exact .inr (.inr (.inl ⟨trivial, not_not.1 h, rfl⟩))
  | clear => exact .inr (.inr (.inr ⟨rfl, rfl⟩))

/-- What a write to CMD can do (R205): an error, or what its decoded operation does. -/
theorem runCommand_cases (v : Word) (s : State) :
    (∃ e, e ≠ HostErr.none ∧ runCommand v s = .next (raiseHostError e s)) ∨
      ∃ c, decodeCommand v = .ok c ∧ runCommand v s = runDecoded c s := by
  unfold runCommand
  split
  · rename_i c h
    exact .inr ⟨c, h, rfl⟩
  · rename_i e h
    exact .inl ⟨rejectCode e, by cases e <;> decide, rfl⟩

end Sys2Proof.Machine
end

