-- ==== Sys2Proof/Laws/PerInstr.lean ====
section
/-! SUPPORT. Per instruction: its encoding lies in its row of the opcode table (R95). -/

namespace Sys2Proof.Laws

/-- An opcode-table row's match and mask, in one of the four formats of R95. -/
inductive RowPattern where
  | cmd (pat mask : Word)
  | bus (pat mask : BitVec 43)
  | event (pat mask : BitVec 10)
  | response (pat mask : Byte)
deriving DecidableEq, Repr

/-- The rows of spec/opcode_table.json, in its order. -/
def tableRow : Instr → RowPattern
  | .flashErase => .cmd 0x00000007 0xFFFFFFFF
  | .flashWrite => .cmd 0x00000009 0xFFFFFFFF
  | .flashRead => .cmd 0x0000000B 0xFFFFFFFF
  | .ramRead => .cmd 0x0000001F 0xFFFFFFFF
  | .flashId => .cmd 0x00000025 0xFFFFFFFF
  | .changeBaud => .cmd 0x00000027 0xFFFFFFFF
  | .selectFlashType => .cmd 0x0000002C 0xFFFFFFFF
  | .chipId => .cmd 0x00000032 0xFFFFFFFF
  | .encodeRaw _ => .cmd 0x00000100 0xFFFFFF00
  | .recv => .cmd 0x00000200 0xFFFFFFFF
  | .clear => .cmd 0x00000300 0xFFFFFFFF
  | .regRead _ => .bus 0x00000000000 0x40000000000
  | .regWrite _ _ => .bus 0x40000000000 0x40000000000
  | .rxByte _ => .event 0x100 0x300
  | .rxTimeout => .event 0x200 0x300
  | .rxStep => .event 0x300 0x300
  | .rspChipId => .response 0x33 0xFF
  | .rspFlashId => .response 0x26 0xFF
  | .rspBaudAck => .response 0x28 0xFF
  | .rspGeneric _ => .response 0x00 0x00

/-- An encoded object matches a row: the same format, and its masked bits are the row's. -/
def RowPattern.Matches : RowPattern → CodeWord → Prop
  | .cmd pat mask, .cmd v => v &&& mask = pat
  | .bus pat mask, .bus w => w &&& mask = pat
  | .event pat mask, .event w => w &&& mask = pat
  | .response pat mask, .response t => t &&& mask = pat
  | _, _ => False

/-- The statement of the family `TableRow`: the encoding of `i` matches the row of `i`. -/
def TableRow.Statement (i : Instr) : Prop := (tableRow i).Matches (encode i)

theorem TableRow.flashErase : TableRow.Statement .flashErase := rfl
theorem TableRow.flashWrite : TableRow.Statement .flashWrite := rfl
theorem TableRow.flashRead : TableRow.Statement .flashRead := rfl
theorem TableRow.ramRead : TableRow.Statement .ramRead := rfl
theorem TableRow.flashId : TableRow.Statement .flashId := rfl
theorem TableRow.changeBaud : TableRow.Statement .changeBaud := rfl
theorem TableRow.selectFlashType : TableRow.Statement .selectFlashType := rfl
theorem TableRow.chipId : TableRow.Statement .chipId := rfl

theorem TableRow.encodeRaw (t : Byte) : TableRow.Statement (.encodeRaw t) := by
  show (0x000001#24 ++ t) &&& 0xFFFFFF00#32 = 0x100#32
  apply BitVec.eq_of_getLsbD_eq
  intro k hk
  rw [BitVec.getLsbD_and, BitVec.getLsbD_append]
  interval_cases k <;> simp

theorem TableRow.recv : TableRow.Statement .recv := rfl
theorem TableRow.clear : TableRow.Statement .clear := rfl

theorem TableRow.regRead (n : RegNum) : TableRow.Statement (.regRead n) := by
  show (0#1 ++ n ++ 0#32) &&& 0x40000000000#43 = 0#43
  apply BitVec.eq_of_getLsbD_eq
  intro k hk
  rw [BitVec.getLsbD_and, BitVec.getLsbD_append, BitVec.getLsbD_append]
  interval_cases k <;> simp

theorem TableRow.regWrite (n : RegNum) (v : Word) : TableRow.Statement (.regWrite n v) := by
  show (1#1 ++ n ++ v) &&& 0x40000000000#43 = 0x40000000000#43
  apply BitVec.eq_of_getLsbD_eq
  intro k hk
  rw [BitVec.getLsbD_and, BitVec.getLsbD_append, BitVec.getLsbD_append]
  interval_cases k <;> simp

theorem TableRow.rxByte (b : Byte) : TableRow.Statement (.rxByte b) := by
  show (0b01#2 ++ b) &&& 0x300#10 = 0x100#10
  apply BitVec.eq_of_getLsbD_eq
  intro k hk
  rw [BitVec.getLsbD_and, BitVec.getLsbD_append]
  interval_cases k <;> simp

theorem TableRow.rxTimeout : TableRow.Statement .rxTimeout := rfl
theorem TableRow.rxStep : TableRow.Statement .rxStep := rfl
theorem TableRow.rspChipId : TableRow.Statement .rspChipId := rfl
theorem TableRow.rspFlashId : TableRow.Statement .rspFlashId := rfl
theorem TableRow.rspBaudAck : TableRow.Statement .rspBaudAck := rfl
theorem TableRow.rspGeneric (t : Byte) : TableRow.Statement (.rspGeneric t) := BitVec.and_zero

end Sys2Proof.Laws
end

