-- ==== Sys2Proof/Laws/Step.lean ====
section
/-! SUPPORT. What one step of the machine can do, said once, with the input it takes. -/

namespace Sys2Proof.Machine

/-- The state after reset holds its buffers in canonical form (log 12). -/
theorem reset_buffers_wf :
    State.reset.pbuf.wf = true ∧ State.reset.rxbuf.wf = true ∧ State.reset.rspData.wf = true := ⟨rfl, rfl, rfl⟩

/-- An event word is one of the three events, or none (R94). -/
theorem decodeEvent_cases (w : BitVec 10) :
    (∃ b, decodeEvent w = .ok (.rxByte b)) ∨ decodeEvent w = .ok .rxTimeout ∨ decodeEvent w = .ok .rxStep ∨
      decodeEvent w = .error .noEvent := by
  unfold decodeEvent
  split
  · exact .inr (.inr (.inr rfl))
  · exact .inl ⟨_, rfl⟩
  · exact .inr (.inl rfl)
  · exact .inr (.inr (.inl rfl))

/-- A bus word is a read or a write (R93). -/
theorem decodeBus_cases (w : BitVec 43) :
    (∃ n, decodeBus w = .regRead n) ∨ ∃ n v, decodeBus w = .regWrite n v := by
  unfold decodeBus
  split
  · exact .inr ⟨_, _, rfl⟩
  · exact .inl ⟨_, rfl⟩

/-- One step: nobody acts or a word without effect is taken; a reset; a bus read; a bus write; or a receiver event, which
is the receive sequencer's own RX_STEP where nothing is pending. -/
theorem step_cases {s t : State} (h : step s = .next t) :
    (s.pending = [] ∧ t = s) ∨
      (∃ w rest, s.pending = .event w :: rest ∧ t = { s with pending := rest }) ∨
      (∃ rest, s.pending = .reset :: rest ∧ t = { State.reset with pending := rest }) ∨
      (∃ w rest n, s.pending = .bus w :: rest ∧ decodeBus w = .regRead n ∧
        execRegRead n { s with pending := rest } = .next t) ∨
      (∃ w rest n v, s.pending = .bus w :: rest ∧ decodeBus w = .regWrite n v ∧
        execRegWrite n v { s with pending := rest } = .next t) ∨
      (∃ w rest b, s.pending = .event w :: rest ∧ execRxByte b { s with pending := rest } = .next t) ∨
      (∃ w rest, s.pending = .event w :: rest ∧ execRxTimeout { s with pending := rest } = .next t) ∨
      (∃ w rest, s.pending = .event w :: rest ∧ execRxStep { s with pending := rest } = .next t) ∨
      (s.pending = [] ∧ rxStepEnabled s = true ∧ execRxStep s = .next t) := by
  unfold step fetch at h
  rcases hp : s.pending with _ | ⟨w | w | _, rest⟩ <;> simp only [hp] at h
  · split at h
    · rename_i i u hf
      split at hf
      · rename_i hen
        cases hf
        exact .inr (.inr (.inr (.inr (.inr (.inr (.inr (.inr ⟨rfl, hen, h⟩)))))))
      · cases hf
    · rename_i u hf
      split at hf
      · cases hf
      · cases hf
        cases h
        exact .inl ⟨rfl, rfl⟩
  · rcases decodeBus_cases w with ⟨n, hw⟩ | ⟨n, v, hw⟩ <;> simp only [hw] at h
    · exact .inr (.inr (.inr (.inl ⟨w, rest, n, rfl, hw, h⟩)))
    · exact .inr (.inr (.inr (.inr (.inl ⟨w, rest, n, v, rfl, hw, h⟩))))
  · rcases decodeEvent_cases w with ⟨b, hw⟩ | hw | hw | hw <;> simp only [hw] at h
    · exact .inr (.inr (.inr (.inr (.inr (.inl ⟨w, rest, b, rfl, h⟩)))))
    · exact .inr (.inr (.inr (.inr (.inr (.inr (.inl ⟨w, rest, rfl, h⟩))))))
    · exact .inr (.inr (.inr (.inr (.inr (.inr (.inr (.inl ⟨w, rest, rfl, h⟩)))))))
    · cases h
      exact .inr (.inl ⟨w, rest, rfl, rfl⟩)
  · cases h
    exact .inr (.inr (.inl ⟨rest, rfl, rfl⟩))

end Sys2Proof.Machine
end

