-- ==== Sys2Proof/Tests/Slice0.lean ====
section
/-! SUPPORT. Our own tests. Expected values come from spec/95_test_vectors.md (named section by section) or are written from the
encoding rules. Then one witness for every obligation that has hypotheses: a concrete state and operands that meet them, at
the boundaries where a clause has a range. -/

namespace Sys2Proof.Tests

open Sys2Proof.Machine

/-! ### Well-formedness: the one check, and what passes it -/

theorem test_wf_refuses_registered_chip_id : (Instr.rspGeneric 0x33).wellFormed = false := by decide
theorem test_wf_refuses_registered_flash_id : (Instr.rspGeneric 0x26).wellFormed = false := by decide
theorem test_wf_refuses_registered_baud_ack : (Instr.rspGeneric 0x28).wellFormed = false := by decide
theorem test_wf_accepts_unregistered : (Instr.rspGeneric 0x0C).wellFormed = true := by decide

/-! ### Decoding: every constructor's word, written out from R90, R91, R93, R94, R150 -/

theorem test_decode_serialize :
    decode (.cmd 0b00000000000000000000000000000111) = .ok .flashErase
      ∧ decode (.cmd 0b00000000000000000000000000001001) = .ok .flashWrite
      ∧ decode (.cmd 0b00000000000000000000000000001011) = .ok .flashRead
      ∧ decode (.cmd 0b00000000000000000000000000011111) = .ok .ramRead
      ∧ decode (.cmd 0b00000000000000000000000000100101) = .ok .flashId
      ∧ decode (.cmd 0b00000000000000000000000000100111) = .ok .changeBaud
      ∧ decode (.cmd 0b00000000000000000000000000101100) = .ok .selectFlashType
      ∧ decode (.cmd 0b00000000000000000000000000110010) = .ok .chipId := by decide

theorem test_decode_codec_commands :
    decode (.cmd 0b00000000000000000000000110101011) = .ok (.encodeRaw 0xAB)
      ∧ decode (.cmd 0b00000000000000000000001000000000) = .ok .recv
      ∧ decode (.cmd 0b00000000000000000000001100000000) = .ok .clear := by decide

/-- `RD FLASH_ID`, and `WR PBUF[3], 0xEF` (programs 2 and 3): bit 42 is W, bits 41:32 the register number. -/
theorem test_decode_bus :
    decode (.bus 0x1000000000) = .ok (.regRead 0x010) ∧ decode (.bus 0x503000000EF) = .ok (.regWrite 0x103 0xEF)
      ∧ decode (.bus 0x7FFFFFFFFFF) = .ok (.regWrite 0x3FF 0xFFFFFFFF) := by decide

theorem test_decode_events :
    decode (.event 0b0111111110) = .ok (.rxByte 0xFE) ∧ decode (.event 0b1000000001) = .ok .rxTimeout
      ∧ decode (.event 0b1110000000) = .ok .rxStep ∧ decode (.event 0b0011111111) = .error .noEvent := by decide

theorem test_decode_response :
    decode (.response 0b00110011) = .ok .rspChipId ∧ decode (.response 0b00100110) = .ok .rspFlashId
      ∧ decode (.response 0b00101000) = .ok .rspBaudAck ∧ decode (.response 0b00100101) = .ok (.rspGeneric 0x25) := by decide

/-- The refused words of 2.7, by name. -/
theorem test_decode_refuses_by_name :
    decode (.cmd 0x00010400) = .error (.cmd .reservedField) ∧ decode (.cmd 0x00010007) = .error (.cmd .reservedField)
      ∧ decode (.cmd 0x00000400) = .error (.cmd .illegalOp) ∧ decode (.cmd 0x0000FF00) = .error (.cmd .illegalOp)
      ∧ decode (.cmd 0x00000000) = .error (.cmd .illegalType) ∧ decode (.cmd 0x00000008) = .error (.cmd .illegalType)
      ∧ decode (.cmd 0x00000201) = .error (.cmd .reservedField)
      ∧ decode (.cmd 0x00000301) = .error (.cmd .reservedField) := by decide

theorem test_table_words :
    decodeTableWord 32 0x1AB = some (.encodeRaw 0xAB) ∧ decodeTableWord 48 0x40000000000 = some (.regWrite 0 0)
      ∧ decodeTableWord 16 0x103 = some (.rxByte 3) ∧ decodeTableWord 8 0x33 = some .rspChipId
      ∧ decodeTableWord 16 0x000 = none ∧ decodeTableWord 32 0x10007 = none := by decide

/-! ### The pure codec (1.1, 1.3, 2.1, 2.2) -/

theorem test_encode_vectors :
    encodeFrame 0xAB [1, 2, 3] = [0x05, 0xAB, 0x01, 0x02, 0x03, 0xAE] ∧ encodeFrame 0xFF [] = [0x02, 0xFF, 0xFD]
      ∧ csum 0x27 [0x09] = 0x2D := by decide

theorem test_decode_frame_errors :
    decodeFrame false 3 [0x28, 0x00, 0x2B, 0x00] = .lengthMismatch ∧ decodeFrame false 2 [0x0C] = .lengthMismatch
      ∧ decodeFrame true 1 [0x05] = .frameTooShort
      ∧ decodeFrame true 3 [0x28, 0x00, 0x00] = .checksumMismatch 0x28 0x00 0x2B := by decide

theorem test_decode_frame_accepts :
    decodeFrame true 2 [0x0C, 0x0E] = .decoded 0x0C [] 0x0E 0x0E
      ∧ decodeFrame false 3 [0x28, 0x00, 0x00] = .decoded 0x28 [0x00] 0x00 0x2B := by decide

/-- The divisor table of 2.5: the limits and the exact ties. -/
theorem test_baud_limits :
    baudDivisor 3913 = none ∧ baudDivisor 3914 = some 255 ∧ baudDivisor 1999999 = some 1 ∧ baudDivisor 2000000 = none
      ∧ baudDivisor 0 = none := by decide

theorem test_baud_rounding :
    baudDivisor 115200 = some 9 ∧ baudDivisor 16000 = some 62 ∧ baudDivisor 80000 = some 12
      ∧ baudDivisor 400000 = some 2 ∧ baudDivisor 666667 = some 1 := by decide

/-! ### One step each -/

/-- The next state an operation answers. -/
def after : Host.Outcome State Fault Refusal → Option State
  | .next s => some s
  | _ => none

/-- The frame an operation appends to an empty stream. -/
def frameOf (o : Host.Outcome State Fault Refusal) : Option (List Byte) := (after o).map (·.txs)

/-- The STATUS an operation leaves. -/
def statusOf (o : Host.Outcome State Fault Refusal) : Option Word := (after o).map statusWord

/-- PBUF = DE AD BE EF, as program 3 writes it. -/
def deadbeef : Memory := [(0, 0xDE), (1, 0xAD), (2, 0xBE), (3, 0xEF)]

theorem test_flash_erase : frameOf (exec .flashErase State.reset) = some [0x02, 0x07, 0x05] := by decide

theorem test_flash_write :
    frameOf (exec .flashWrite { State.reset with argAddr := 0x80, pbuf := deadbeef, pbufLen := 4 })
      = some [0x0A, 0x09, 0x80, 0x00, 0x00, 0x00, 0xDE, 0xAD, 0xBE, 0xEF, 0xA1] := by decide

theorem test_flash_write_too_long :
    statusOf (exec .flashWrite { State.reset with pbufLen := 250 }) = some 0x00003000 := by decide

theorem test_flash_read :
    frameOf (exec .flashRead { State.reset with argAddr := 0x12345678, argLen := 0x0102 })
      = some [0x08, 0x0B, 0x78, 0x56, 0x34, 0x12, 0x02, 0x01, 0x08] := by decide

theorem test_ram_read :
    frameOf (exec .ramRead { State.reset with argAddr := 0x1000, argLen := 8 })
      = some [0x08, 0x1F, 0x00, 0x10, 0x00, 0x00, 0x08, 0x00, 0x0F] := by decide

theorem test_flash_id : frameOf (exec .flashId State.reset) = some [0x02, 0x25, 0x27] := by decide

theorem test_change_baud :
    frameOf (exec .changeBaud { State.reset with argBaud := 38400 }) = some [0x03, 0x27, 0x1A, 0x3E] := by decide

theorem test_change_baud_out_of_range : statusOf (exec .changeBaud State.reset) = some 0x00004000 := by decide

theorem test_select_flash_type :
    frameOf (exec .selectFlashType { State.reset with argFtype := 8, argJump := 0x12345678 })
      = some [0x07, 0x2C, 0x08, 0x78, 0x56, 0x34, 0x12, 0x2B] := by decide

theorem test_chip_id : frameOf (exec .chipId State.reset) = some [0x02, 0x32, 0x30] := by decide

theorem test_encode_raw :
    frameOf (exec (.encodeRaw 0xFF) { State.reset with pbuf := [(0, 0xFF), (1, 0xFF), (2, 0xFF)], pbufLen := 3 })
      = some [0x05, 0xFF, 0xFF, 0xFF, 0xFF, 0x05] := by decide

theorem test_encode_raw_too_long :
    statusOf (exec (.encodeRaw 0) { State.reset with pbufLen := 254 }) = some 0x00003000 := by decide

theorem test_recv : statusOf (exec .recv State.reset) = some 0x00000001 := by decide

theorem test_recv_busy :
    statusOf (exec .recv { State.reset with rxState := .waitLen }) = some 0x00005001 := by decide

/-- Program 6, step 7: after the timeout, with the late tail in RXQ. -/
theorem test_clear :
    statusOf (exec .clear { State.reset with rspDone := true, decErr := .lengthMismatch, hostErr := .badReg, rxOverrun := true })
      = some 0 := by decide

/-- 2.6: a number outside the map reads 0; program 2, step 5 reads CHIP_ID. -/
theorem test_reg_read :
    (after (exec (.regRead 0x00F) { State.reset with chipId := 0x10408686 })).map (·.busReadData) = some 0x10408686
      ∧ (after (exec (.regRead 0x015) State.reset)).map (·.busReadData) = some 0 := by decide

/-- 2.6: `WR ARG_LEN, 0x12345` and `WR 0x1FC, 0x1AB`. -/
theorem test_reg_write :
    (after (exec (.regWrite 0x003 0x12345) State.reset)).map (·.argLen) = some 0x2345
      ∧ (after (exec (.regWrite 0x1FC 0x1AB) State.reset)).map (·.pbuf) = some [(252, 0xAB)] := by decide

/-- 2.6: read-only and undefined numbers. -/
theorem test_reg_write_bad :
    statusOf (exec (.regWrite 0x001 5) State.reset) = some 0x00007000
      ∧ statusOf (exec (.regWrite 0x1FD 1) State.reset) = some 0x00007000
      ∧ statusOf (exec (.regWrite 0x2FF 0) State.reset) = some 0x00007000 := by decide

/-- The parameters of most vectors: no checksum verification, unbounded RXQ. -/
def lenient : Config.Params := { verifyRxChecksum := false, rxqExtra := none }

/-- VERIFY_RX_CHECKSUM set, RXQ_DEPTH = 256. -/
def strict : Config.Params := { verifyRxChecksum := true, rxqExtra := some 0 }

/-- 2.3, the overrun vector: the byte that finds 256 bytes in RXQ is dropped. -/
theorem test_rx_byte_overrun {q : List Byte} (h : q.length = 256) :
    (deliverByte strict 0xFF { State.reset with rxq := q }).rxOverrun = true
      ∧ (deliverByte lenient 0xFF { State.reset with rxq := q }).rxqCount = 257 := by
  simp [deliverByte, rxqFull, strict, lenient, setRxq, rxqCountOf, h]

/-- 2.3: nothing delivered; and `05`, then a timeout. -/
theorem test_rx_timeout :
    statusWord (readTimeout lenient { State.reset with rxState := .waitLen }) = 0x00000104
      ∧ statusWord (readTimeout strict { State.reset with rxState := .collect, rspLength := 5 }) = 0x00000304 := by decide

/-- 2.3: the length byte `00` ends the frame at once. -/
theorem test_rx_step_zero_length :
    statusWord (receiverStep lenient { State.reset with rxState := .waitLen, rxq := [0x00] }) = 0x00000204 := by decide

/-- The receiver of `03 28 00 …` with its last byte `b` waiting. -/
def lastByte (b : Byte) : State :=
  { State.reset with
    rxState := .collect, rspLength := 3, rxCount := 2, rxbuf := [(0, 0x28)], rxq := [b], rxqCount := 1 }

/-- 2.3: `03 28 00 2B`, and `03 28 00 00` with and without verification. -/
theorem test_rx_step_ends_frame :
    statusWord (receiverStep strict (lastByte 0x2B)) = 0x0000003C
      ∧ statusWord (receiverStep strict (lastByte 0x00)) = 0x00000404
      ∧ statusWord (receiverStep lenient (lastByte 0x00)) = 0x0000003C := by decide

/-- 2.4: `07 33 01 10 40 86 86 65`, its frame body in RXBUF. -/
theorem test_rsp_chip_id :
    (after (exec .rspChipId { State.reset with
      rspLength := 7, rxbuf := [(0, 0x33), (1, 0x01), (2, 0x10), (3, 0x40), (4, 0x86), (5, 0x86), (6, 0x65)] })).map
        (fun t => (t.chipId, t.chipIdValid, t.rspStatus)) = some (0x10408686, true, 0x01) := by decide

/-- 2.4: `06 33 00 10 40 86 E3`: three data bytes are no identifier. -/
theorem test_rsp_chip_id_short :
    (after (exec .rspChipId { State.reset with
      rspLength := 6, rxbuf := [(0, 0x33), (2, 0x10), (3, 0x40), (4, 0x86), (5, 0xE3)] })).map
        (fun t => (t.chipId, t.chipIdValid, t.rspDataLen)) = some (0, false, 3) := by decide

/-- 2.4: `05 26 02 CC EE 03`. -/
theorem test_rsp_flash_id :
    (after (exec .rspFlashId { State.reset with
      rspLength := 5, rxbuf := [(0, 0x26), (1, 0x02), (2, 0xCC), (3, 0xEE), (4, 0x03)] })).map
        (fun t => (t.flashId, t.flashIdValid, t.rspKind)) = some (0xCCEE, true, .flashId) := by decide

/-- 2.4: `04 28 00 55 79`. -/
theorem test_rsp_baud_ack :
    (after (exec .rspBaudAck { State.reset with rspLength := 4, rxbuf := [(0, 0x28), (2, 0x55), (3, 0x79)] })).map
        (fun t => (t.rspDataLen, t.rspData, t.rspKind)) = some (1, [(0, 0x55)], .baudAck) := by decide

/-- 2.4: `02 0C 0E`: no status byte. -/
theorem test_rsp_generic_empty :
    (after (exec (.rspGeneric 0x0C) { State.reset with rspLength := 2, rxbuf := [(0, 0x0C), (1, 0x0E)] })).map
        (fun t => (t.statusValid, t.rspDataLen, t.rspKind)) = some (false, 0, .generic) := by decide

/-- The step after `withFetchWord` runs the word's instruction: the baud divisor register, then a received type byte. -/
theorem test_fetch_word :
    after (step (State.reset.withFetchWord 48 0x40500000008)) = some { State.reset with argFtype := 8 }
      ∧ (State.reset.withFetchWord 32 0x07).pending = [.bus 0x40000000007] := by decide

/-! ### Witnesses of the obligations' hypotheses -/

/-- A machine whose next inputs are `inputs`. -/
def waiting (inputs : List Input) : State := { State.reset with pending := inputs }

/-- An armed receiver with a length byte waiting. -/
def armed : State := { State.reset with rxState := .waitLen, rxq := [0x02], rxqCount := 1 }

/-- A receiver after two body bytes of four, with one more waiting. -/
def collecting : State :=
  { State.reset with
    rxState := .collect, rspLength := 4, rxCount := 2, rxbuf := [(0, 0x28)], rxq := [0x55, 0x79], rxqCount := 2 }

/-- A collecting receiver has its buffers in canonical form and within their sizes, and the receiver's invariant. -/
theorem inv_collecting : Inv collecting := by
  refine ⟨by unfold BuffersCanonical; decide, by unfold BuffersInRange; decide, ?_⟩
  have hr : ∀ i, 2 ≤ i → Memory.read [(0, 0x28#8)] i = 0 := fun i hi => by
    simp only [Memory.read, if_neg (show i ≠ 0 by omega)]
    rfl
  have hd : ∀ d, Config.params.rxqDepth = some d → 2 ≤ d := fun d h => le_trans (by decide) (rxqDepth_ge h)
  constructor <;> simp [collecting, State.reset, ResponseCleared]
  · exact hr
  · exact hd

theorem witness_ResetInputRestoresResetState : (waiting [.reset, .event 0x103]).pending = .reset :: [.event 0x103] := by decide

theorem witness_StepRunsTheDecodedInput :
    (waiting [.bus 0x40000000200]).pending = .bus 0x40000000200 :: []
      ∧ (waiting [.event 0x103]).pending = .event 0x103 :: [] ∧ decode (.event 0x103) = .ok (.rxByte 3)
      ∧ (waiting [.event (0b00#2 ++ 0xFF#8)]).pending = .event (0b00#2 ++ 0xFF#8) :: []
      ∧ armed.pending = [] ∧ armed.rxState ≠ .idle ∧ armed.rxq ≠ []
      ∧ State.reset.pending = [] ∧ (State.reset.rxState = .idle ∨ State.reset.rxq = []) := by decide

theorem witness_FlashWriteEmitsAddressThenData :
    { State.reset with pbufLen := 249 }.pbufLen.toNat ≤ 249 ∧ 249 < { State.reset with pbufLen := 250 }.pbufLen.toNat := by
  decide

theorem witness_ChangeBaudEmitsNearestDivisor :
    (3914 ≤ { State.reset with argBaud := 3914 }.argBaud.toNat ∧ { State.reset with argBaud := 3914 }.argBaud.toNat ≤ 1999999)
      ∧ (3914 ≤ { State.reset with argBaud := 1999999 }.argBaud.toNat
        ∧ { State.reset with argBaud := 1999999 }.argBaud.toNat ≤ 1999999)
      ∧ State.reset.argBaud.toNat < 3914 ∧ { State.reset with argBaud := 3913 }.argBaud.toNat < 3914
      ∧ 1999999 < { State.reset with argBaud := 2000000 }.argBaud.toNat := by decide

theorem witness_EncodeRawEmitsBuffer :
    { State.reset with pbufLen := 253 }.pbufLen.toNat ≤ 253 ∧ 253 < { State.reset with pbufLen := 254 }.pbufLen.toNat := by
  decide

theorem witness_RecvArmsAnIdleReceiver :
    State.reset.rxState = .idle ∧ armed.rxState ≠ .idle ∧ collecting.rxState ≠ .idle := by decide

/-- The ranges of the register map at their ends, each end inside one clause only. -/
theorem witness_RegReadReturnsTheMappedValue :
    (252 < 253 ∧ BitVec.ofNat 10 (0x100 + 252) = 0x1FC#10) ∧ (254 < 255 ∧ BitVec.ofNat 10 (0x200 + 254) = 0x2FE#10)
      ∧ (251 < 252 ∧ BitVec.ofNat 10 (0x300 + 251) = 0x3FB#10)
      ∧ ∀ n ∈ [0x015#10, 0x0FF#10, 0x1FD#10, 0x1FF#10, 0x2FF#10, 0x3FC#10, 0x3FF#10],
        (0x015 ≤ n.toNat ∧ n.toNat ≤ 0x0FF) ∨ (0x1FD ≤ n.toNat ∧ n.toNat ≤ 0x1FF) ∨ n.toNat = 0x2FF ∨ 0x3FC ≤ n.toNat := by
  simp

theorem witness_StatusReadsFieldByField :
    State.reset.rxState = .idle ∧ armed.rxState = .waitLen ∧ collecting.rxState = .collect
      ∧ (∀ e : DecErr, { State.reset with decErr := e }.decErr = e)
      ∧ ∀ e : HostErr, { State.reset with hostErr := e }.hostErr = e := ⟨rfl, rfl, rfl, fun _ => rfl, fun _ => rfl⟩

theorem witness_RegWriteStoresTheLowBits :
    BuffersCanonical { State.reset with pbuf := deadbeef } ∧ 0 < 253 ∧ 252 < 253 := by
  unfold BuffersCanonical
  decide

theorem witness_RegWriteElsewhereIsBadReg :
    ∀ n ∈ [0x001#10, 0x008#10, 0x0FF#10, 0x1FD#10, 0x200#10, 0x3FF#10],
      n.toNat = 0x001 ∨ (0x008 ≤ n.toNat ∧ n.toNat ≤ 0x0FF) ∨ 0x1FD ≤ n.toNat := by simp

/-- One value of CMD for each clause, at the first and the last value of its range. -/
theorem witness_CmdChecksFollowTheirOrder :
    (65536 ≤ (0x00010000#32).toNat ∧ 65536 ≤ (0xFFFFFFFF#32).toNat)
      ∧ ((0x00000400#32).toNat < 65536 ∧ 4 ≤ (0x00000400#32).toNat / 256 % 256 ∧ 4 ≤ (0x0000FFFF#32).toNat / 256 % 256)
      ∧ ((0x00000033#32).toNat / 256 % 256 = 0
        ∧ (0x00000033#32).toNat % 256 ∉ [0x07, 0x09, 0x0B, 0x1F, 0x25, 0x27, 0x2C, 0x32])
      ∧ ((0x00000201#32).toNat / 256 % 256 = 2 ∧ (0x00000201#32).toNat % 256 ≠ 0)
      ∧ ((0x000003FF#32).toNat / 256 % 256 = 3 ∧ (0x000003FF#32).toNat % 256 ≠ 0)
      ∧ ((0x00000200#32).toNat = 0x200 ∧ armed.rxState ≠ .idle)
      ∧ ((0x000001FF#32).toNat / 256 % 256 = 1 ∧ 253 < { State.reset with pbufLen := 254 }.pbufLen.toNat)
      ∧ ((0x00000009#32).toNat = 0x09 ∧ 249 < { State.reset with pbufLen := 250 }.pbufLen.toNat)
      ∧ ((0x00000027#32).toNat = 0x27 ∧ State.reset.argBaud.toNat < 3914) := by decide

theorem witness_RefusedCommandOnlySetsHostErr :
    exec (.regWrite 0 0x00010000) State.reset = .next { State.reset with hostErr := .reservedField }
      ∧ { State.reset with hostErr := .reservedField }.hostErr ≠ .none := ⟨rfl, by decide⟩

theorem witness_RxTimeoutEndsAStarvedReception :
    (State.reset.rxState = .idle ∧ armed.rxq ≠ [])
      ∧ ({ State.reset with rxState := .waitLen }.rxState = .waitLen ∧ { State.reset with rxState := .waitLen }.rxq = [])
      ∧ ({ collecting with rxq := [] }.rxState = .collect ∧ { collecting with rxq := [] }.rxq = []
        ∧ { collecting with rxq := [] }.rxCount.toNat < { collecting with rxq := [] }.rspLength.toNat) := by decide

theorem witness_RxStepTakesTheLengthByte : armed.rxState = .waitLen ∧ armed.rxq = 0x02 :: [] := by decide

theorem witness_RxStepStoresABodyByte :
    BuffersCanonical collecting ∧ collecting.rxState = .collect ∧ collecting.rxq = 0x55 :: [0x79]
      ∧ collecting.rxCount.toNat + 1 < collecting.rspLength.toNat := by
  unfold BuffersCanonical
  decide

theorem witness_LengthOneFrameIsTooShort :
    BuffersCanonical { armed with rxState := .collect, rspLength := 1 }
      ∧ { armed with rxState := .collect, rspLength := 1 }.rxState = .collect
      ∧ { armed with rxState := .collect, rspLength := 1 }.rxq = 0x02 :: []
      ∧ { armed with rxState := .collect, rspLength := 1 }.rxCount = 0
      ∧ { armed with rxState := .collect, rspLength := 1 }.rspLength = 1 := by
  unfold BuffersCanonical
  decide

theorem witness_RxStepEndsTheFrame :
    BuffersCanonical (lastByte 0x2B) ∧ (lastByte 0x2B).rxState = .collect ∧ (lastByte 0x2B).rxq = 0x2B :: []
      ∧ 2 ≤ (lastByte 0x2B).rspLength.toNat ∧ (lastByte 0x2B).rxCount.toNat + 1 = (lastByte 0x2B).rspLength.toNat := by
  unfold BuffersCanonical
  decide

theorem witness_DisabledRxStepPasses :
    State.reset.rxState = .idle ∧ { State.reset with rxState := .waitLen }.rxq = [] := by decide

theorem witness_RegistrySelectsTheParseRule : (0x0C#8) ≠ 0x26 ∧ (0x0C#8) ≠ 0x28 ∧ (0x0C#8) ≠ 0x33 := by decide

/-- One body of each length the parse rules tell apart. -/
theorem witness_ParseRules :
    BuffersCanonical (lastByte 0x2B) ∧ BuffersCanonical { collecting with rspLength := 7 }
      ∧ BuffersCanonical { collecting with rspLength := 5 } := by
  unfold BuffersCanonical
  decide

/-- The longest payload: for ChecksumClosedForm, EncodedFrameLayoutAndXor and CodecRoundTrip. -/
theorem witness_LongestPayload : (List.replicate 253 (0xFF : Byte)).length ≤ 253 := List.length_replicate.le

theorem witness_ChecksumIgnoresPayloadOrder : List.Perm [0x01#8, 0x02#8, 0x30#8] [0x30#8, 0x01#8, 0x02#8] := by decide

theorem witness_DecodeChecksInOrder :
    (1#8).toNat < 2 ∧ (2 ≤ (2#8).toNat ∧ [0x0C#8].length ≠ (2#8).toNat)
      ∧ ([0x0C#8, 0x0E#8] = 0x0C#8 :: ([] ++ [0x0E#8]) ∧ (2#8).toNat = ([] : List Byte).length + 2) := by decide

theorem witness_DecodeInvertsEncode :
    (Instr.rspGeneric 0x0C).wellFormed = true ∧ (Instr.regWrite 0x3FF 0xFFFFFFFF).wellFormed = true := by decide

theorem witness_EncodeInvertsDecode : decode (.cmd 0x000001AB) = .ok (.encodeRaw 0xAB) := by decide

/-- With a byte waiting and nothing pending, the sequencer's own step. -/
theorem witness_StepKeepsInvariant : Inv collecting ∧ ∃ t, step collecting = .next t := ⟨inv_collecting, _, rfl⟩

theorem witness_StepKeepsBuffersCanonical :
    BuffersCanonical collecting ∧ ∃ t, step collecting = .next t := ⟨inv_collecting.1, _, rfl⟩

/-- A stream of one frame, FLASH_ERASE's. -/
theorem witness_StepKeepsTxsFramed :
    TxsFramed { State.reset with txs := [0x02, 0x07, 0x05], txLastLen := 3, txLastCsum := 0x05 }
      ∧ ∃ t, step { State.reset with txs := [0x02, 0x07, 0x05], txLastLen := 3, txLastCsum := 0x05 } = .next t :=
  ⟨⟨[(0x07, [])], by decide, by decide, by decide, by decide⟩, _, rfl⟩

theorem witness_TxsGrowsByOneWholeFrame : ∃ t, step (waiting [.bus 0x40000000007]) = .next t := ⟨_, rfl⟩

/-- A write of CLEAR with RX_OVERRUN set. -/
theorem witness_OnlyClearAndResetClearOverrun :
    ∃ t, step { waiting [.bus 0x40000000300] with rxOverrun := true } = .next t
      ∧ { waiting [.bus 0x40000000300] with rxOverrun := true }.rxOverrun = true ∧ t.rxOverrun = false := ⟨_, rfl, rfl, rfl⟩

/-- A write to STATUS. -/
theorem witness_OnlyBusWritesTouchHostErr :
    ∃ t, step (waiting [.bus 0x40100000005]) = .next t ∧ t.hostErr ≠ (waiting [.bus 0x40100000005]).hostErr :=
  ⟨_, rfl, by decide⟩

theorem witness_ReceiverEventsLeaveTheHostSide : ∃ t, exec .rxStep collecting = .next t := ⟨_, rfl⟩

theorem witness_OperandsDoNotReachTheReception :
    (∃ t, exec (.rxByte 0x03) collecting = .next t) ∧ (∃ t, exec .rxTimeout collecting = .next t)
      ∧ ∃ t, exec .rxStep collecting = .next t := ⟨⟨_, rfl⟩, ⟨_, rfl⟩, _, rfl⟩

theorem witness_RxByteCommutesWithRxStep :
    Inv collecting ∧ collecting.rxState ≠ .idle ∧ collecting.rxq ≠ []
      ∧ Config.params.rxqDepth ≠ some collecting.rxq.length :=
  ⟨inv_collecting, by decide, by decide, fun h => absurd (rxqDepth_ge h) (by decide)⟩

/-- `03 28 00 2B` and one byte more, waiting in RXQ of an idle receiver; and a frame of length 0. -/
theorem witness_ReceptionEndsAsDecodeSays :
    { State.reset with rxq := [0x03, 0x28, 0x00, 0x2B, 0xAA] }.rxState = .idle
      ∧ { State.reset with rxq := [0x03, 0x28, 0x00, 0x2B, 0xAA] }.pending = []
      ∧ { State.reset with rxq := [0x03, 0x28, 0x00, 0x2B, 0xAA] }.rxq = 0x03 :: ([0x28, 0x00, 0x2B] ++ [0xAA])
      ∧ [0x28#8, 0x00#8, 0x2B#8].length = (0x03#8).toNat
      ∧ { State.reset with rxq := [0x00] }.rxq = 0x00 :: ([] ++ []) ∧ ([] : List Byte).length = (0x00#8).toNat := by decide

theorem witness_EncodedFrameIsReceivedBack :
    [0x00#8].length ≤ 253 ∧ { State.reset with rxq := [0x03, 0x28, 0x00, 0x2B, 0xAA] }.rxState = .idle
      ∧ { State.reset with rxq := [0x03, 0x28, 0x00, 0x2B, 0xAA] }.pending = []
      ∧ { State.reset with rxq := [0x03, 0x28, 0x00, 0x2B, 0xAA] }.rxq = encodeFrame 0x28 [0x00] ++ [0xAA] := by decide

theorem witness_ArmedReceptionEnds :
    Inv collecting ∧ collecting.rxState ≠ .idle ∧ collecting.pending = [] := ⟨inv_collecting, by decide, by decide⟩

end Sys2Proof.Tests
end

section
/-! The register map and STATUS as the host reads them (R22-R25, R50, R200-R203): obligations O1, O14, O15. -/

namespace Sys2Proof.Machine

/-! ### The register map -/

theorem exec_regRead (n : RegNum) (s : State) : exec (.regRead n) s = .next { s with busReadData := regValue s n } := rfl

theorem regValue_scalar {n : RegNum} (s : State) (h : n.toNat ≤ 0x014) : regValue s n = scalarReg s n.toNat := if_pos h

theorem regValue_pbuf (s : State) {i : Nat} (hi : i < 253) :
    regValue s (BitVec.ofNat 10 (0x100 + i)) = (s.pbuf.read i).setWidth 32 := by
  have hn : (BitVec.ofNat 10 (0x100 + i)).toNat = 0x100 + i := Nat.mod_eq_of_lt (by omega)
  rw [regValue, hn, if_neg (by omega), if_pos (by omega), Nat.add_sub_cancel_left]

theorem regValue_rxbuf (s : State) {i : Nat} (hi : i < 255) :
    regValue s (BitVec.ofNat 10 (0x200 + i)) = (s.rxbuf.read i).setWidth 32 := by
  have hn : (BitVec.ofNat 10 (0x200 + i)).toNat = 0x200 + i := Nat.mod_eq_of_lt (by omega)
  rw [regValue, hn, if_neg (by omega), if_neg (by omega), if_pos (by omega), Nat.add_sub_cancel_left]

theorem regValue_rspData (s : State) {i : Nat} (hi : i < 252) :
    regValue s (BitVec.ofNat 10 (0x300 + i)) = (s.rspData.read i).setWidth 32 := by
  have hn : (BitVec.ofNat 10 (0x300 + i)).toNat = 0x300 + i := Nat.mod_eq_of_lt (by omega)
  rw [regValue, hn, if_neg (by omega), if_neg (by omega), if_neg (by omega), if_pos (by omega), Nat.add_sub_cancel_left]

/-- An undefined register number reads 0 (R203). -/
theorem regValue_undefined (s : State) {n : RegNum}
    (h : (0x015 ≤ n.toNat ∧ n.toNat ≤ 0x0FF) ∨ (0x1FD ≤ n.toNat ∧ n.toNat ≤ 0x1FF) ∨ n.toNat = 0x2FF ∨ 0x3FC ≤ n.toNat) :
    regValue s n = 0 := by
  rw [regValue, if_neg (by omega), if_neg (by omega), if_neg (by omega), if_neg (by omega)]

theorem regValue_rspKind (s : State) :
    regValue s 0x00E = match s.rspKind with | .generic => 0 | .flashId => 1 | .baudAck => 2 | .chipId => 3 := by
  rw [regValue_scalar s (by decide)]
  show (kindCode s.rspKind).setWidth 32 = _
  cases s.rspKind <;> rfl

/-- Settles O14, register number by register number. -/
theorem regReadReturnsTheMappedValue : Obligations.RegReadReturnsTheMappedValue := by
  intro s reads
  have reads_of_regValue {n : RegNum} {v : Word} (h : regValue s n = v) : reads n v := h ▸ exec_regRead n s
  refine ⟨rfl, rfl, rfl, rfl, rfl, rfl, rfl, rfl, rfl, rfl, rfl, rfl, rfl, rfl, reads_of_regValue (regValue_rspKind s), rfl,
    rfl, rfl, rfl, rfl, rfl, ?pbuf, ?rxbuf, ?rspData, ?undefined⟩
  case pbuf => exact fun i hi => reads_of_regValue (regValue_pbuf s hi)
  case rxbuf => exact fun i hi => reads_of_regValue (regValue_rxbuf s hi)
  case rspData => exact fun i hi => reads_of_regValue (regValue_rspData s hi)
  case undefined => exact fun n hn => reads_of_regValue (regValue_undefined s hn)

/-! ### The reset state -/

theorem scalarReg_reset (k : Nat) : scalarReg State.reset k = 0 := by
  unfold scalarReg
  split <;> rfl

theorem regValue_reset (n : RegNum) : regValue State.reset n = 0 := by
  unfold regValue
  split_ifs
  · exact scalarReg_reset _
  all_goals rfl

/-- Settles O1, through the value of every register number of the map. -/
theorem resetStateIsAllZero : Obligations.ResetStateIsAllZero :=
  ⟨regValue_reset, rfl, rfl, fun _ => ⟨rfl, rfl, rfl⟩, rfl, rfl⟩

/-! ### STATUS, field by field -/

theorem statusWord_rxState (s : State) : (statusWord s).extractLsb' 0 2 = s.rxState.code := by
  apply BitVec.eq_of_getLsbD_eq
  intro k hk
  simp only [statusWord, BitVec.getLsbD_extractLsb', BitVec.getLsbD_append]
  interval_cases k <;> simp

theorem statusWord_decErr (s : State) : (statusWord s).extractLsb' 8 3 = s.decErr.code := by
  apply BitVec.eq_of_getLsbD_eq
  intro k hk
  simp only [statusWord, BitVec.getLsbD_extractLsb', BitVec.getLsbD_append]
  interval_cases k <;> simp

theorem statusWord_hostErr (s : State) : (statusWord s).extractLsb' 12 3 = s.hostErr.code := by
  apply BitVec.eq_of_getLsbD_eq
  intro k hk
  simp only [statusWord, BitVec.getLsbD_extractLsb', BitVec.getLsbD_append]
  interval_cases k <;> simp

theorem statusWord_reserved (s : State) : (statusWord s).extractLsb' 16 16 = 0 := by
  apply BitVec.eq_of_getLsbD_eq
  intro k hk
  simp only [statusWord, BitVec.getLsbD_extractLsb', BitVec.getLsbD_append]
  interval_cases k <;> simp

theorem statusWord_flags (s : State) :
    (statusWord s).getLsbD 2 = s.rspDone ∧ (statusWord s).getLsbD 3 = s.rspValid ∧
      (statusWord s).getLsbD 4 = s.statusValid ∧ (statusWord s).getLsbD 5 = rspOk s ∧
      (statusWord s).getLsbD 6 = s.chipIdValid ∧ (statusWord s).getLsbD 7 = s.flashIdValid ∧
      (statusWord s).getLsbD 11 = false ∧ (statusWord s).getLsbD 15 = s.rxOverrun := by
  simp only [statusWord, BitVec.getLsbD_append]
  simp

/-- RSP_OK is computed from its two parts (R25). -/
theorem rspOk_iff (s : State) : rspOk s = true ↔ s.statusValid = true ∧ s.rspStatus = 0 := by simp [rspOk]

/-- Settles O15, from the bits of each field. -/
theorem statusReadsFieldByField : Obligations.StatusReadsFieldByField := by
  intro s w
  obtain ⟨hDone, hValid, hStatus, hOk, hChip, hFlash, hBit11, hOverrun⟩ := statusWord_flags s
  have rxState {x : RxState} (h : s.rxState = x) : w.extractLsb' 0 2 = x.code := h ▸ statusWord_rxState s
  have decErr {e : DecErr} (h : s.decErr = e) : w.extractLsb' 8 3 = e.code := h ▸ statusWord_decErr s
  have hostErr {e : HostErr} (h : s.hostErr = e) : w.extractLsb' 12 3 = e.code := h ▸ statusWord_hostErr s
  exact ⟨rxState, rxState, rxState, hDone, hValid, hStatus, hOk ▸ rspOk_iff s, hChip, hFlash,
    decErr, decErr, decErr, decErr, decErr, hBit11,
    hostErr, hostErr, hostErr, hostErr, hostErr, hostErr, hostErr, hostErr, hOverrun, statusWord_reserved s⟩

end Sys2Proof.Machine
end

section
/-! What a step does, said once for every property it keeps: the inversions of a bus write and of CLEAR's word, what the
receiver leaves alone, and the principle by which a step keeps a property that each operation keeps. -/

namespace Sys2Proof.Machine

/-! ### The word of CLEAR -/

/-- A CMD value is its three fields, one after the other (R90). -/
theorem cmd_fields (v : Word) : cmdReserved v ++ cmdOp v ++ cmdType v = v := by
  have hHigh : cmdReserved v ++ cmdOp v = v.extractLsb' 8 24 :=
    BitVec.extractLsb'_append_extractLsb'_eq_extractLsb' (start₁ := 8) (len₁ := 8) rfl
  rw [hHigh]
  exact BitVec.extractLsb'_append_extractLsb' (w := 24) (len := 8)

/-- CLEAR is no operation of SERIALIZE (R91). -/
theorem serializeTable_lookup_ne_clear (t : Byte) : serializeTable.lookup t ≠ some .clear := by
  intro h
  obtain ⟨l₁, l₂, hl, _⟩ := List.lookup_eq_some_iff.1 h
  have hmem : (t, Command.clear) ∈ serializeTable := hl ▸ List.mem_append_right l₁ List.mem_cons_self
  simp [serializeTable] at hmem

/-- Only the word 0x300 decodes to CLEAR (R91). -/
theorem eq_of_decodeCommand_clear {v : Word} (h : decodeCommand v = .ok .clear) : v = 0x00000300 := by
  unfold decodeCommand at h
  split at h
  · cases h
  rename_i hReserved
  split at h
  · cases h
  rename_i hOp
  split at h
  · split at h
    · rename_i c hLookup
      cases h
      exact absurd hLookup (serializeTable_lookup_ne_clear _)
    · cases h
  rename_i hNotSerialize
  split at h
  · cases h
  rename_i hNotEncodeRaw
  split at h
  · cases h
  rename_i hType
  split at h
  · cases h
  rename_i hNotRecv
  have hClear : cmdOp v = 3#8 := by
    rw [BitVec.toNat_eq] at *
    simp only [BitVec.toNat_ofNat] at *
    omega
  rw [← cmd_fields v, hClear, not_not.1 hReserved, not_not.1 hType]
  rfl

/-! ### A bus write -/

/-- What a bus write can do (R201, R202, R205, R224): a host error, BAD_REG where it is no write to CMD; a store; or, as a
write to CMD, one whole frame, the arming of an idle receiver, or CLEAR. -/
theorem execRegWrite_cases {n : RegNum} {v : Word} {s t : State} (h : execRegWrite n v s = .next t) :
    (∃ e, t = raiseHostError e s ∧ (n = 0 ∨ e = .badReg)) ∨
      storeReg n v s = some t ∨
      (n = 0 ∧ ∃ ty p, p.length ≤ Config.maxPayload ∧ t = emit ty p s) ∨
      (n = 0 ∧ s.rxState = .idle ∧ t = { clearResponse s with rxState := .waitLen, hostErr := .none }) ∨
      (n = 0 ∧ v = 0x00000300 ∧
        t = { setRxq [] (clearResponse s) with rxState := .idle, rxOverrun := false, hostErr := .none }) := by
  unfold execRegWrite at h
  split at h
  · rename_i hn
    rcases runCommand_cases v s with ⟨e, _, hv⟩ | ⟨c, hc, hv⟩
    · cases hv.symm.trans h
      exact .inl ⟨e, rfl, .inl hn⟩
    · rcases runDecoded_cases c s with ⟨e, _, hr⟩ | ⟨ty, p, hp, hr⟩ | ⟨rfl, hi, hr⟩ | ⟨rfl, hr⟩ <;>
        cases (hv.trans hr).symm.trans h
      · exact .inl ⟨e, rfl, .inl hn⟩
      · exact .inr (.inr (.inl ⟨hn, ty, p, hp, rfl⟩))
      · exact .inr (.inr (.inr (.inl ⟨hn, hi, rfl⟩)))
      · exact .inr (.inr (.inr (.inr ⟨hn, eq_of_decodeCommand_clear hc, rfl⟩)))
  · split at h
    · rename_i u hu
      cases h
      exact .inr (.inl hu)
    · cases h
      exact .inl ⟨.badReg, rfl, .inr rfl⟩

/-- A stored register changes the operands and PBUF only (R201). -/
theorem storeReg_frame {n : RegNum} {v : Word} {s t : State} (h : storeReg n v s = some t) :
    t = { s with
      argAddr := t.argAddr, argLen := t.argLen, argBaud := t.argBaud, argFtype := t.argFtype, argJump := t.argJump,
      pbufLen := t.pbufLen, pbuf := t.pbuf } := by
  rcases storeReg_cases h with ⟨x, rfl⟩ | ⟨x, rfl⟩ | ⟨x, rfl⟩ | ⟨x, rfl⟩ | ⟨x, rfl⟩ | ⟨x, rfl⟩ | ⟨i, b, _, rfl⟩ <;> rfl

/-! ### What the receiver leaves alone -/

theorem SameHostSide.refl (s : State) : SameHostSide s s := by simp [SameHostSide]

theorem sameHostSide_parse (t : Byte) (p : List Byte) (s : State) : SameHostSide s (parse t p s) := by
  rcases parse_cases t p s with h | ⟨v, _, h⟩ | ⟨v, _, h⟩ <;> simp [h, parseCommon_eq, SameHostSide]

theorem sameHostSide_finishFrame (p : Config.Params) (s : State) : SameHostSide s (finishFrame p s) := by
  rcases finishFrame_cases p s with ⟨t, pl, c, k, _, h⟩ | h | h | ⟨t, c, k, _, h⟩
  · rw [h]
    exact sameHostSide_parse t pl _
  all_goals simp [h, SameHostSide]

theorem sameHostSide_takeLength (p : Config.Params) (b : Byte) (s : State) : SameHostSide s (takeLength p b s) := by
  unfold takeLength
  split
  · exact sameHostSide_finishFrame p _
  · exact SameHostSide.refl s

theorem sameHostSide_takeBody (p : Config.Params) (b : Byte) (s : State) : SameHostSide s (takeBody p b s) := by
  unfold takeBody
  split
  · exact sameHostSide_finishFrame p _
  · exact SameHostSide.refl s

theorem sameHostSide_receiverStep (p : Config.Params) (s : State) : SameHostSide s (receiverStep p s) := by
  rcases receiverStep_cases p s with ⟨_, h⟩ | ⟨b, q, _, _, h⟩ | ⟨b, q, _, _, h⟩ <;> rw [h]
  · exact SameHostSide.refl s
  · exact sameHostSide_takeLength p b (setRxq q s)
  · exact sameHostSide_takeBody p b (setRxq q s)

theorem sameHostSide_deliverByte (p : Config.Params) (b : Byte) (s : State) : SameHostSide s (deliverByte p b s) := by
  rcases deliverByte_cases p b s with ⟨_, h⟩ | ⟨_, h⟩ <;> rw [h] <;> exact SameHostSide.refl s

theorem sameHostSide_readTimeout (p : Config.Params) (s : State) : SameHostSide s (readTimeout p s) := by
  rcases readTimeout_cases p s with ⟨_, h⟩ | ⟨_, _, h⟩ | ⟨_, _, h⟩ <;> rw [h]
  · exact SameHostSide.refl s
  · exact SameHostSide.refl s
  · exact sameHostSide_finishFrame p s

@[simp] theorem parse_rxOverrun (t : Byte) (p : List Byte) (s : State) : (parse t p s).rxOverrun = s.rxOverrun := by
  rcases parse_cases t p s with h | ⟨v, _, h⟩ | ⟨v, _, h⟩ <;> simp [h, parseCommon_eq]

@[simp] theorem finishFrame_rxOverrun (p : Config.Params) (s : State) :
    (finishFrame p s).rxOverrun = s.rxOverrun := by
  rcases finishFrame_cases p s with ⟨t, pl, c, k, _, h⟩ | h | h | ⟨t, c, k, _, h⟩ <;> simp [h, frameOk]

@[simp] theorem takeLength_rxOverrun (p : Config.Params) (b : Byte) (s : State) :
    (takeLength p b s).rxOverrun = s.rxOverrun := by
  unfold takeLength
  split <;> simp

@[simp] theorem takeBody_rxOverrun (p : Config.Params) (b : Byte) (s : State) :
    (takeBody p b s).rxOverrun = s.rxOverrun := by
  unfold takeBody
  split <;> simp

@[simp] theorem receiverStep_rxOverrun (p : Config.Params) (s : State) :
    (receiverStep p s).rxOverrun = s.rxOverrun := by
  rcases receiverStep_cases p s with ⟨_, h⟩ | ⟨b, q, _, _, h⟩ | ⟨b, q, _, _, h⟩ <;> simp [h]

@[simp] theorem readTimeout_rxOverrun (p : Config.Params) (s : State) :
    (readTimeout p s).rxOverrun = s.rxOverrun := by
  rcases readTimeout_cases p s with ⟨_, h⟩ | ⟨_, _, h⟩ | ⟨_, _, h⟩ <;> simp [h, transportTimeout]

/-- A delivered byte may set RX_OVERRUN, and never clears it (R32, R120). -/
theorem deliverByte_keeps_overrun (p : Config.Params) (b : Byte) {s : State} (h : s.rxOverrun = true) :
    (deliverByte p b s).rxOverrun = true := by
  rcases deliverByte_cases p b s with ⟨_, hd⟩ | ⟨_, hd⟩ <;> simp [hd, h]

/-! ### One step -/

/-- From `s` to `t`, HOST_ERR and TXS stay and no RX_OVERRUN is cleared: what all but a reset and a bus write keep. -/
def Quiet (s t : State) : Prop :=
  t.hostErr = s.hostErr ∧ t.txs = s.txs ∧ (s.rxOverrun = true → t.rxOverrun = true)

theorem SameHostSide.quiet {s t : State} (h : SameHostSide s t) (hov : s.rxOverrun = true → t.rxOverrun = true) :
    Quiet s t := by
  obtain ⟨_, _, _, _, _, _, _, hErr, hTxs, _⟩ := h
  exact ⟨hErr, hTxs, hov⟩

theorem quiet_deliverByte (p : Config.Params) (b : Byte) (s : State) : Quiet s (deliverByte p b s) :=
  (sameHostSide_deliverByte p b s).quiet (deliverByte_keeps_overrun p b)

theorem quiet_readTimeout (p : Config.Params) (s : State) : Quiet s (readTimeout p s) :=
  (sameHostSide_readTimeout p s).quiet (readTimeout_rxOverrun p s).trans

theorem quiet_receiverStep (p : Config.Params) (s : State) : Quiet s (receiverStep p s) :=
  (sameHostSide_receiverStep p s).quiet (receiverStep_rxOverrun p s).trans

/-- A step is a reset, a bus write, or quiet. -/
theorem step_reset_or_write_or_quiet {s t : State} (h : step s = .next t) :
    (∃ rest, s.pending = .reset :: rest) ∨
      (∃ w rest n v, s.pending = .bus w :: rest ∧ decodeBus w = .regWrite n v ∧
        execRegWrite n v { s with pending := rest } = .next t) ∨
      Quiet s t := by
  rcases step_cases h with ⟨_, rfl⟩ | ⟨w, rest, _, rfl⟩ | ⟨rest, hreset, _⟩ | ⟨w, rest, n, _, _, h⟩ |
    hwrite | ⟨w, rest, b, _, h⟩ | ⟨w, rest, _, h⟩ | ⟨w, rest, _, h⟩ | ⟨_, _, h⟩
  case inl | inr.inl => exact .inr (.inr ⟨rfl, rfl, id⟩)
  case inr.inr.inl => exact .inl ⟨rest, hreset⟩
  case inr.inr.inr.inr.inl => exact .inr (.inl hwrite)
  all_goals cases h; refine .inr (.inr ?_)
  · exact ⟨rfl, rfl, id⟩
  · exact quiet_deliverByte _ b { s with pending := rest }
  · exact quiet_readTimeout _ { s with pending := rest }
  · exact quiet_receiverStep _ { s with pending := rest }
  · exact quiet_receiverStep _ s

/-- What an operation of the machine must keep for every step to keep `P`: one field per thing that can happen. -/
structure KeptByOperations (P : State → Prop) : Prop where
  /-- An input is taken. -/
  pending : ∀ s rest, P s → P { s with pending := rest }
  reset : P State.reset
  busRead : ∀ s v, P s → P { s with busReadData := v }
  hostError : ∀ s e, P s → P (raiseHostError e s)
  store : ∀ s t n v, P s → storeReg n v s = some t → P t
  emit : ∀ s ty p, p.length ≤ Config.maxPayload → P s → P (emit ty p s)
  /-- RECV. -/
  arm : ∀ s, P s → P { clearResponse s with rxState := .waitLen, hostErr := .none }
  /-- CLEAR. -/
  clear : ∀ s, P s → P { setRxq [] (clearResponse s) with rxState := .idle, rxOverrun := false, hostErr := .none }
  rxByte : ∀ s b, P s → P (deliverByte Config.params b s)
  timeout : ∀ s, P s → P (readTimeout Config.params s)
  rxStep : ∀ s, P s → P (receiverStep Config.params s)

theorem KeptByOperations.regWrite {P : State → Prop} (k : KeptByOperations P) {n : RegNum} {v : Word} {s t : State}
    (hs : P s) (h : execRegWrite n v s = .next t) : P t := by
  rcases execRegWrite_cases h with ⟨e, rfl, _⟩ | hst | ⟨_, ty, p, hp, rfl⟩ | ⟨_, _, rfl⟩ | ⟨_, _, rfl⟩
  · exact k.hostError s e hs
  · exact k.store s t n v hs hst
  · exact k.emit s ty p hp hs
  · exact k.arm s hs
  · exact k.clear s hs

/-- A property that every operation keeps is kept by every step. -/
theorem KeptByOperations.step {P : State → Prop} (k : KeptByOperations P) {s t : State} (hs : P s)
    (h : step s = .next t) : P t := by
  rcases step_cases h with ⟨_, rfl⟩ | ⟨w, rest, _, rfl⟩ | ⟨rest, _, rfl⟩ | ⟨w, rest, n, _, _, h⟩ |
    ⟨w, rest, n, v, _, _, h⟩ | ⟨w, rest, b, _, h⟩ | ⟨w, rest, _, h⟩ | ⟨w, rest, _, h⟩ | ⟨_, _, h⟩
  case inl => exact hs
  case inr.inl => exact k.pending s rest hs
  case inr.inr.inl => exact k.pending _ rest k.reset
  case inr.inr.inr.inr.inl => exact k.regWrite (k.pending s rest hs) h
  all_goals cases h
  · exact k.busRead _ _ (k.pending s rest hs)
  · exact k.rxByte _ b (k.pending s rest hs)
  · exact k.timeout _ (k.pending s rest hs)
  · exact k.rxStep _ (k.pending s rest hs)
  · exact k.rxStep s hs

end Sys2Proof.Machine
end

section
/-! Which inputs touch TXS, HOST_ERR and RX_OVERRUN (R30, R32, R44, R49, R70, R81, R260): obligations O42-O45. -/

namespace Sys2Proof.Machine

/-! ### One input's effect on TXS, HOST_ERR and RX_OVERRUN -/

theorem quiet_storeReg {n : RegNum} {v : Word} {s t : State} (h : storeReg n v s = some t) : Quiet s t := by
  rw [storeReg_frame h]
  exact ⟨rfl, rfl, id⟩

/-- A bus write leaves TXS, or appends one whole frame as a write to CMD (R70). -/
theorem execRegWrite_txs {n : RegNum} {v : Word} {s t : State} (h : execRegWrite n v s = .next t) :
    t.txs = s.txs ∨ n = 0 ∧ ∃ ty p, p.length ≤ Config.maxPayload ∧ t.txs = s.txs ++ encodeFrame ty p := by
  rcases execRegWrite_cases h with ⟨e, rfl, _⟩ | hst | ⟨hn, ty, p, hp, rfl⟩ | ⟨_, _, rfl⟩ | ⟨_, _, rfl⟩
  · exact .inl rfl
  · obtain ⟨_, hTxs, _⟩ := quiet_storeReg hst
    exact .inl hTxs
  · exact .inr ⟨hn, ty, p, hp, rfl⟩
  · exact .inl rfl
  · exact .inl rfl

/-- Of the bus writes, only CLEAR's clears RX_OVERRUN (R32, R130). -/
theorem execRegWrite_clears_overrun {n : RegNum} {v : Word} {s t : State} (h : execRegWrite n v s = .next t)
    (hs : s.rxOverrun = true) (ht : t.rxOverrun = false) : n = 0 ∧ v = 0x00000300 := by
  have kept (hkept : t.rxOverrun = true) : n = 0 ∧ v = 0x00000300 := absurd (hkept.symm.trans ht) (by decide)
  rcases execRegWrite_cases h with ⟨e, rfl, _⟩ | hst | ⟨_, ty, p, _, rfl⟩ | ⟨_, _, rfl⟩ | ⟨hn, hv, _⟩
  · exact kept hs
  · obtain ⟨_, _, hov⟩ := quiet_storeReg hst
    exact kept (hov hs)
  · exact kept hs
  · exact kept hs
  · exact ⟨hn, hv⟩

/-- Of the bus writes, only one to CMD or one refused with BAD_REG changes HOST_ERR (R30, R201, R202). -/
theorem execRegWrite_hostErr {n : RegNum} {v : Word} {s t : State} (h : execRegWrite n v s = .next t)
    (hne : t.hostErr ≠ s.hostErr) : n = 0 ∨ t.hostErr = .badReg := by
  rcases execRegWrite_cases h with ⟨e, rfl, he⟩ | hst | ⟨hn, _⟩ | ⟨hn, _⟩ | ⟨hn, _⟩
  · exact he
  · obtain ⟨hErr, _, _⟩ := quiet_storeReg hst
    exact absurd hErr hne
  all_goals exact .inl hn

/-! ### The obligations about one step -/

/-- Settles O43: only a bus write to CMD that emits a frame reaches TXS. -/
theorem txsGrowsByOneWholeFrame : Obligations.TxsGrowsByOneWholeFrame := by
  intro s t h
  rcases step_reset_or_write_or_quiet h with hreset | ⟨w, rest, n, v, hp, hw, h⟩ | ⟨_, hTxs, _⟩
  · exact .inl hreset
  · rcases execRegWrite_txs h with hTxs | ⟨rfl, ty, p, hlen, hTxs⟩
    · exact .inr (.inl hTxs)
    · exact .inr (.inr ⟨w, rest, v, ty, p, hp, hw, hlen, hTxs⟩)
  · exact .inr (.inl hTxs)

/-- Settles O44: of all inputs only reset and the write of CLEAR's word clear RX_OVERRUN. -/
theorem onlyClearAndResetClearOverrun : Obligations.OnlyClearAndResetClearOverrun := by
  intro s t h hs ht
  rcases step_reset_or_write_or_quiet h with hreset | ⟨w, rest, n, v, hp, hw, h⟩ | ⟨_, _, hov⟩
  · exact .inl hreset
  · obtain ⟨rfl, rfl⟩ := execRegWrite_clears_overrun h hs ht
    exact .inr ⟨w, rest, hp, hw⟩
  · exact absurd ((hov hs).symm.trans ht) (by decide)

/-- Settles O45: receiver events and stores leave HOST_ERR. -/
theorem onlyBusWritesTouchHostErr : Obligations.OnlyBusWritesTouchHostErr := by
  intro s t h hne
  rcases step_reset_or_write_or_quiet h with hreset | ⟨w, rest, n, v, hp, hw, h⟩ | ⟨hErr, _, _⟩
  · exact .inl hreset
  · exact .inr ⟨w, rest, n, v, hp, hw, execRegWrite_hostErr h hne⟩
  · exact absurd hErr hne

/-! ### TXS as a sequence of whole frames -/

theorem framesBytes_append (fs gs : List (Byte × List Byte)) :
    framesBytes (fs ++ gs) = framesBytes fs ++ framesBytes gs := by
  simp [framesBytes]

@[simp] theorem framesBytes_singleton (f : Byte × List Byte) : framesBytes [f] = encodeFrame f.1 f.2 := by
  simp [framesBytes]

theorem txsFramed_reset : TxsFramed State.reset := ⟨[], by simp, rfl, rfl, rfl⟩

/-- `TxsFramed` speaks of TXS, TX_LAST_LEN and TX_LAST_CSUM only. -/
theorem TxsFramed.congr {s t : State} (h : TxsFramed s) (hTxs : t.txs = s.txs) (hLen : t.txLastLen = s.txLastLen)
    (hCsum : t.txLastCsum = s.txLastCsum) : TxsFramed t := by
  unfold TxsFramed at *
  rwa [hTxs, hLen, hCsum]

theorem TxsFramed.of_sameHostSide {s t : State} (h : TxsFramed s) (hst : SameHostSide s t) : TxsFramed t := by
  obtain ⟨_, _, _, _, _, _, _, _, hTxs, hLen, hCsum, _⟩ := hst
  exact h.congr hTxs hLen hCsum

theorem TxsFramed.storeReg {n : RegNum} {v : Word} {s t : State} (hs : TxsFramed s) (h : storeReg n v s = some t) :
    TxsFramed t := by
  rw [storeReg_frame h]
  exact hs.congr rfl rfl rfl

/-- An emitted frame becomes the last one of the sequence (R44, R70, R113). -/
theorem TxsFramed.emit {s : State} (h : TxsFramed s) (ty : Byte) {p : List Byte} (hp : p.length ≤ Config.maxPayload) :
    TxsFramed (emit ty p s) := by
  obtain ⟨fs, hLegal, hTxs, _⟩ := h
  rw [emit_eq]
  refine ⟨fs ++ [(ty, p)], ?legal, ?bytes, ?last⟩
  case legal =>
    intro f hf
    rcases List.mem_append.1 hf with hf | hf
    · exact hLegal f hf
    · rwa [List.mem_singleton.1 hf]
  case bytes => simp [framesBytes_append, hTxs]
  case last =>
    rw [List.getLast?_concat]
    refine ⟨Nat.mod_eq_of_lt ?_, rfl⟩
    simp only [Config.maxPayload] at hp
    omega

theorem txsFramed_keptByOperations : KeptByOperations TxsFramed where
  pending _ _ hs := hs.congr rfl rfl rfl
  reset := txsFramed_reset
  busRead _ _ hs := hs.congr rfl rfl rfl
  hostError _ _ hs := hs.congr rfl rfl rfl
  store _ _ _ _ hs h := hs.storeReg h
  emit _ ty _ hp hs := hs.emit ty hp
  arm _ hs := hs.congr rfl rfl rfl
  clear _ hs := hs.congr rfl rfl rfl
  rxByte s b hs := hs.of_sameHostSide (sameHostSide_deliverByte _ b s)
  timeout s hs := hs.of_sameHostSide (sameHostSide_readTimeout _ s)
  rxStep s hs := hs.of_sameHostSide (sameHostSide_receiverStep _ s)

/-- Settles O42: an emitted frame extends the sequence, and every other operation leaves the transmit side. -/
theorem stepKeepsTxsFramed : Obligations.StepKeepsTxsFramed := fun _ _ => txsFramed_keptByOperations.step

end Sys2Proof.Machine
end

section
/-! The canonical form of the buffers and the invariant of the receiver, kept by every step (R26-R29, R40-R48, R127,
R222, R253, log 12): obligations O39-O41. -/

namespace Sys2Proof.Machine

/-! ### The receive side alone -/

/-- From `s` to `t` only the host's operands, HOST_ERR, the transmit side and the model's own fields may differ. -/
def SameReceiveSide (s t : State) : Prop :=
  t = { s with
    argAddr := t.argAddr, argLen := t.argLen, argBaud := t.argBaud, argFtype := t.argFtype, argJump := t.argJump,
    pbufLen := t.pbufLen, pbuf := t.pbuf, hostErr := t.hostErr, txs := t.txs, txLastLen := t.txLastLen,
    txLastCsum := t.txLastCsum, busReadData := t.busReadData, pending := t.pending }

/-- The receiver's invariant speaks of the receive side only. -/
theorem ReceiverInv.of_sameReceiveSide {s t : State} (h : ReceiverInv s) (hst : SameReceiveSide s t) :
    ReceiverInv t := by
  rw [hst]
  exact { h with }

theorem sameReceiveSide_storeReg {n : RegNum} {v : Word} {s t : State} (h : storeReg n v s = some t) :
    SameReceiveSide s t := by
  rw [storeReg_frame h]
  rfl

/-! ### The buffers -/

/-- A stored register leaves the buffers, but for at most one of PBUF's 253 entries (R201). -/
theorem storeReg_buffers {n : RegNum} {v : Word} {s t : State} (h : storeReg n v s = some t) :
    t.rxbuf = s.rxbuf ∧ t.rspData = s.rspData ∧
      (t.pbuf = s.pbuf ∨ ∃ i b, i < Config.maxPayload ∧ t.pbuf = s.pbuf.write i b) := by
  rcases storeReg_cases h with ⟨x, rfl⟩ | ⟨x, rfl⟩ | ⟨x, rfl⟩ | ⟨x, rfl⟩ | ⟨x, rfl⟩ | ⟨x, rfl⟩ | ⟨i, b, hi, rfl⟩
  case inr.inr.inr.inr.inr.inr => exact ⟨rfl, rfl, .inr ⟨i, b, hi, rfl⟩⟩
  all_goals exact ⟨rfl, rfl, .inl rfl⟩

@[simp] theorem parse_pbuf (t : Byte) (p : List Byte) (s : State) : (parse t p s).pbuf = s.pbuf := by
  rcases parse_cases t p s with h | ⟨v, _, h⟩ | ⟨v, _, h⟩ <;> simp [h, parseCommon_eq]

@[simp] theorem parse_rxbuf (t : Byte) (p : List Byte) (s : State) : (parse t p s).rxbuf = s.rxbuf := by
  rcases parse_cases t p s with h | ⟨v, _, h⟩ | ⟨v, _, h⟩ <;> simp [h, parseCommon_eq]

@[simp] theorem parse_rspData (t : Byte) (p : List Byte) (s : State) :
    (parse t p s).rspData = s.rspData.writeFrom 0 p.tail := by
  rcases parse_cases t p s with h | ⟨v, _, h⟩ | ⟨v, _, h⟩ <;> simp [h, parseCommon_eq]

/-- A received payload has at most 253 bytes (R116). -/
theorem length_le_of_decodeFrame_decoded {verify : Bool} {len : Byte} {raw : List Byte} {t : Byte} {p : List Byte}
    {c k : Byte} (h : decodeFrame verify len raw = .decoded t p c k) : p.length ≤ Config.maxPayload := by
  obtain ⟨_, _, _, rfl, _⟩ := decodeFrame_decoded h
  have hlen := len.isLt
  have htake := List.length_take_le (len.toNat - 2) (raw.drop 1)
  simp only [Config.maxPayload]
  omega

/-- What the end of a frame does to the buffers: RSP_DATA receives the data bytes of a response, at most 252 (R40, R154);
PBUF and RXBUF stay. -/
theorem finishFrame_buffers (p : Config.Params) (s : State) :
    (finishFrame p s).pbuf = s.pbuf ∧ (finishFrame p s).rxbuf = s.rxbuf ∧
      ∃ data, data.length ≤ Config.maxData ∧ (finishFrame p s).rspData = s.rspData.writeFrom 0 data := by
  rcases finishFrame_cases p s with ⟨t, pl, c, k, hd, h⟩ | h | h | ⟨t, c, k, _, h⟩
  · have hpl := length_le_of_decodeFrame_decoded hd
    refine ⟨by simp [h, frameOk], by simp [h, frameOk], pl.tail, ?_, by simp [h, frameOk]⟩
    simp only [Config.maxPayload, Config.maxData, List.length_tail] at *
    omega
  all_goals exact ⟨by rw [h]; rfl, by rw [h]; rfl, [], Nat.zero_le _, by rw [h]; rfl⟩

/-- What a receiver event can do to the buffers: at most one body byte into RXBUF, and at most 252 data bytes into RSP_DATA
(R40, R123, R154). -/
structure BuffersFilled (s t : State) : Prop where
  pbuf : t.pbuf = s.pbuf
  rxbuf : t.rxbuf = s.rxbuf ∨ s.rxState = .collect ∧ ∃ b, t.rxbuf = s.rxbuf.write s.rxCount.toNat b
  rspData : ∃ data, data.length ≤ Config.maxData ∧ t.rspData = s.rspData.writeFrom 0 data

theorem buffersFilled_of_eq {s t : State} (hp : t.pbuf = s.pbuf) (hx : t.rxbuf = s.rxbuf) (hd : t.rspData = s.rspData) :
    BuffersFilled s t := ⟨hp, .inl hx, [], Nat.zero_le _, hd⟩

theorem buffersFilled_finishFrame (p : Config.Params) (s : State) : BuffersFilled s (finishFrame p s) := by
  obtain ⟨hp, hx, hd⟩ := finishFrame_buffers p s
  exact ⟨hp, .inl hx, hd⟩

theorem buffersFilled_takeLength (p : Config.Params) (b : Byte) (s : State) : BuffersFilled s (takeLength p b s) := by
  unfold takeLength
  split
  · obtain ⟨hp, hx, hd⟩ := finishFrame_buffers p { s with rspLength := b, rxCount := 0 }
    exact ⟨hp, .inl hx, hd⟩
  · exact buffersFilled_of_eq rfl rfl rfl

theorem buffersFilled_takeBody (p : Config.Params) (b : Byte) {s : State} (hs : s.rxState = .collect) :
    BuffersFilled s (takeBody p b s) := by
  unfold takeBody
  split
  · obtain ⟨hp, hx, hd⟩ := finishFrame_buffers p
      { s with rxbuf := s.rxbuf.write s.rxCount.toNat b, rxCount := s.rxCount + 1#8 }
    exact ⟨hp, .inr ⟨hs, b, hx⟩, hd⟩
  · exact ⟨rfl, .inr ⟨hs, b, rfl⟩, [], Nat.zero_le _, rfl⟩

theorem buffersFilled_receiverStep (p : Config.Params) (s : State) : BuffersFilled s (receiverStep p s) := by
  rcases receiverStep_cases p s with ⟨_, h⟩ | ⟨b, q, _, _, h⟩ | ⟨b, q, _, hs, h⟩ <;> rw [h]
  · exact buffersFilled_of_eq rfl rfl rfl
  · exact { buffersFilled_takeLength p b (setRxq q s) with }
  · exact { buffersFilled_takeBody p b (s := setRxq q s) hs with }

theorem buffersFilled_deliverByte (p : Config.Params) (b : Byte) (s : State) : BuffersFilled s (deliverByte p b s) := by
  rcases deliverByte_cases p b s with ⟨_, h⟩ | ⟨_, h⟩ <;> rw [h] <;> exact buffersFilled_of_eq rfl rfl rfl

theorem buffersFilled_readTimeout (p : Config.Params) (s : State) : BuffersFilled s (readTimeout p s) := by
  rcases readTimeout_cases p s with ⟨_, h⟩ | ⟨_, _, h⟩ | ⟨_, _, h⟩ <;> rw [h]
  · exact buffersFilled_of_eq rfl rfl rfl
  · exact buffersFilled_of_eq rfl rfl rfl
  · exact buffersFilled_finishFrame p s

/-! ### The canonical form (log 12) -/

theorem BuffersCanonical.storeReg {n : RegNum} {v : Word} {s t : State} (hs : BuffersCanonical s)
    (h : storeReg n v s = some t) : BuffersCanonical t := by
  obtain ⟨hp, hx, hd⟩ := hs
  obtain ⟨hrxbuf, hrspData, hpbuf | ⟨i, b, _, hpbuf⟩⟩ := storeReg_buffers h <;> rw [← hrxbuf] at hx <;>
    rw [← hrspData] at hd
  · exact ⟨hpbuf ▸ hp, hx, hd⟩
  · exact ⟨hpbuf ▸ Memory.wf_write hp i b, hx, hd⟩

theorem BuffersCanonical.of_filled {s t : State} (h : BuffersCanonical s) (hst : BuffersFilled s t) :
    BuffersCanonical t := by
  obtain ⟨hp, hx, hd⟩ := h
  obtain ⟨hpbuf, hrxbuf, data, _, hdata⟩ := hst
  refine ⟨hpbuf ▸ hp, ?_, hdata ▸ Memory.wf_writeFrom hd⟩
  rcases hrxbuf with hrxbuf | ⟨_, b, hrxbuf⟩
  · exact hrxbuf ▸ hx
  · exact hrxbuf ▸ Memory.wf_write hx _ b

theorem buffersCanonical_keptByOperations : KeptByOperations BuffersCanonical where
  pending _ _ hs := hs
  reset := reset_buffers_wf
  busRead _ _ hs := hs
  hostError _ _ hs := hs
  store _ _ _ _ hs h := hs.storeReg h
  emit _ _ _ _ hs := hs
  arm _ hs := ⟨hs.1, rfl, rfl⟩
  clear _ hs := ⟨hs.1, rfl, rfl⟩
  rxByte s b hs := hs.of_filled (buffersFilled_deliverByte _ b s)
  timeout s hs := hs.of_filled (buffersFilled_readTimeout _ s)
  rxStep s hs := hs.of_filled (buffersFilled_receiverStep _ s)

/-- Settles O41: every operation keeps the canonical form, so every step does. -/
theorem stepKeepsBuffersCanonical : Obligations.StepKeepsBuffersCanonical :=
  fun _ _ => buffersCanonical_keptByOperations.step

/-! ### The sizes of the buffers (R45-R47) -/

theorem BuffersInRange.storeReg {n : RegNum} {v : Word} {s t : State} (hs : BuffersInRange s)
    (h : storeReg n v s = some t) : BuffersInRange t := by
  obtain ⟨hp, hx, hd⟩ := hs
  obtain ⟨hrxbuf, hrspData, hpbuf | ⟨i, b, hi, hpbuf⟩⟩ := storeReg_buffers h <;> rw [← hrxbuf] at hx <;>
    rw [← hrspData] at hd
  · exact ⟨hpbuf ▸ hp, hx, hd⟩
  · exact ⟨hpbuf ▸ Memory.below_write hi hp, hx, hd⟩

/-- While collecting, RXBUF has room for one more byte (R28, R46). -/
theorem ReceiverInv.rxCount_lt {s : State} (h : ReceiverInv s) (hs : s.rxState = .collect) :
    s.rxCount.toNat < Config.maxLen := by
  obtain ⟨_, hlt⟩ := h.collecting hs
  have := s.rspLength.isLt
  simp only [Config.maxLen]
  omega

theorem BuffersInRange.of_filled {s t : State} (h : BuffersInRange s) (hinv : ReceiverInv s) (hst : BuffersFilled s t) :
    BuffersInRange t := by
  obtain ⟨hp, hx, hd⟩ := h
  obtain ⟨hpbuf, hrxbuf, data, hlen, hdata⟩ := hst
  refine ⟨hpbuf ▸ hp, ?_, hdata ▸ Memory.below_writeFrom (by omega) hd⟩
  rcases hrxbuf with hrxbuf | ⟨hs, b, hrxbuf⟩
  · exact hrxbuf ▸ hx
  · exact hrxbuf ▸ Memory.below_write (hinv.rxCount_lt hs) hx

/-! ### The queue -/

/-- The part of the receiver's invariant that speaks of RXQ, RXQ_COUNT and RX_OVERRUN (R43, R48, R120). -/
structure QueueInv (rxq : List Byte) (rxqCount : Word) (rxOverrun : Bool) : Prop where
  count : rxqCount.toNat = min rxq.length 0xFFFFFFFF
  depth : ∀ d, Config.params.rxqDepth = some d → rxq.length ≤ d
  overrun : rxOverrun = true → Config.params.rxqDepth ≠ none

theorem ReceiverInv.queue {s : State} (h : ReceiverInv s) : QueueInv s.rxq s.rxqCount s.rxOverrun :=
  ⟨h.rxq_count, h.rxq_depth, h.overrun_bounded⟩

theorem toNat_rxqCountOf (n : Nat) : (rxqCountOf n).toNat = min n 0xFFFFFFFF := Nat.mod_eq_of_lt (by omega)

/-- Taking the oldest byte (R121). -/
theorem QueueInv.pop {rxq q : List Byte} {b : Byte} {n : Word} {o : Bool} (h : QueueInv rxq n o) (hq : rxq = b :: q) :
    QueueInv q (rxqCountOf q.length) o where
  count := toNat_rxqCountOf _
  depth d hd := by
    have := h.depth d hd
    rw [hq, List.length_cons] at this
    omega
  overrun := h.overrun

/-- Appending a byte below RXQ_DEPTH (R48, R120). -/
theorem QueueInv.push {rxq : List Byte} {n : Word} {o : Bool} (h : QueueInv rxq n o)
    (hroom : Config.params.rxqDepth ≠ some rxq.length) (b : Byte) :
    QueueInv (rxq ++ [b]) (rxqCountOf (rxq ++ [b]).length) o where
  count := toNat_rxqCountOf _
  depth d hd := by
    have hle := h.depth d hd
    have hne : d ≠ rxq.length := fun heq => hroom (heq ▸ hd)
    rw [List.length_append, List.length_singleton]
    omega
  overrun := h.overrun

/-- Dropping a byte at RXQ_DEPTH (R120, R235). -/
theorem QueueInv.drop {rxq : List Byte} {n : Word} {o : Bool} (h : QueueInv rxq n o)
    (hfull : Config.params.rxqDepth = some rxq.length) : QueueInv rxq (rxqCountOf rxq.length) true where
  count := toNat_rxqCountOf _
  depth := h.depth
  overrun _ hnone := by simp [hnone] at hfull

/-- The receiver's invariant depends on RXQ, RXQ_COUNT and RX_OVERRUN only through the queue's. -/
theorem ReceiverInv.with_queue {s : State} (h : ReceiverInv s) {q : List Byte} {n : Word} {o : Bool}
    (hq : QueueInv q n o) : ReceiverInv { s with rxq := q, rxqCount := n, rxOverrun := o } :=
  { h with rxq_count := hq.count, rxq_depth := hq.depth, overrun_bounded := hq.overrun }

theorem ReceiverInv.deliverByte {s : State} (h : ReceiverInv s) (b : Byte) :
    ReceiverInv (deliverByte Config.params b s) := by
  rcases deliverByte_cases Config.params b s with ⟨hfull, hd⟩ | ⟨hroom, hd⟩ <;> rw [hd]
  · exact h.with_queue (h.queue.drop hfull)
  · exact h.with_queue (h.queue.push hroom b)

/-! ### A running reception -/

/-- What RECV establishes and holds until the reception ends: no response, no decode error, every response register
clear, nothing in RXBUF but the collected bytes (R127, R129). It holds of the receiver at its last body byte too, where the
count of `ReceiverInv.collecting` has been reached. -/
structure Receiving (s : State) : Prop where
  no_response : s.rspValid = false
  no_error : s.decErr = .none
  cleared : ResponseCleared s
  type_cleared : s.rspType = 0 ∧ s.rspChecksum = 0 ∧ s.rspCalcChecksum = 0
  rxbuf_zero : ∀ i, s.rxCount.toNat ≤ i → s.rxbuf.read i = 0
  queue : QueueInv s.rxq s.rxqCount s.rxOverrun

/-- An armed receiver has a reception running (R28). -/
theorem ReceiverInv.receiving {s : State} (h : ReceiverInv s) (harmed : s.rxState ≠ .idle) : Receiving s := by
  have hdone : s.rspDone ≠ true := by simp [h.armed_running harmed]
  have hvalid : s.rspValid = false := Bool.eq_false_iff.2 fun hv => hdone (h.valid_done hv).1
  have herr : s.decErr = .none := by_contra fun he => hdone (h.error_done he).1
  exact ⟨hvalid, herr, h.cleared hvalid, h.type_cleared hvalid (by simp [herr]), h.rxbuf_zero, h.queue⟩

/-- The invariant of a state without a response, from what depends on how it came about. -/
theorem Receiving.receiverInv {s : State} (h : Receiving s) (hdone : s.rxState ≠ .idle → s.rspDone = false)
    (hwait : s.rxState = .waitLen → s.rspLength = 0 ∧ s.rxCount = 0)
    (hcollect : s.rxState = .collect → 1 ≤ s.rspLength.toNat ∧ s.rxCount.toNat < s.rspLength.toNat) : ReceiverInv s := by
  obtain ⟨hStatus, hChip, hFlash, _, hDataLen, _, hChipId, hFlashId, hData⟩ := h.cleared
  exact {
    valid_done := by simp [h.no_response]
    error_done := by simp [h.no_error]
    cleared := fun _ => h.cleared
    type_cleared := fun _ _ => h.type_cleared
    mismatch_verified := by simp [h.no_error]
    armed_running := hdone
    waiting := hwait
    collecting := hcollect
    rxbuf_zero := h.rxbuf_zero
    rspData_zero := fun i _ => by rw [hData]; rfl
    rspDataLen_le := by simp [hDataLen]
    chip_kind := by simp [hChip]
    chip_zero := fun _ => hChipId
    flash_kind := by simp [hFlash]
    flash_zero := fun _ => hFlashId
    rxq_count := h.queue.count
    rxq_depth := h.queue.depth
    overrun_bounded := h.queue.overrun }

/-- A reception that ends with a decode error `e` (R127, R128); a checksum mismatch alone keeps the type and the two
checksums. -/
theorem Receiving.receiverInv_of_error {s : State} (h : Receiving s) {e : DecErr} {t c k : Byte}
    (htype : e ≠ .checksumMismatch → t = 0 ∧ c = 0 ∧ k = 0)
    (hverify : e = .checksumMismatch → Config.params.verifyRxChecksum = true) :
    ReceiverInv { raiseDecodeError e (endReception s) with rspType := t, rspChecksum := c, rspCalcChecksum := k } := by
  obtain ⟨hStatus, hChip, hFlash, _, hDataLen, _, hChipId, hFlashId, hData⟩ := h.cleared
  exact {
    valid_done := by simp
    error_done := fun _ => ⟨rfl, rfl⟩
    cleared := fun _ => h.cleared
    type_cleared := fun _ hne => htype hne
    mismatch_verified := hverify
    armed_running := fun hne => absurd rfl hne
    waiting := by simp
    collecting := by simp
    rxbuf_zero := h.rxbuf_zero
    rspData_zero := fun i _ => by simp [hData]
    rspDataLen_le := by simp [hDataLen]
    chip_kind := by simp [hChip]
    chip_zero := fun _ => hChipId
    flash_kind := by simp [hFlash]
    flash_zero := fun _ => hFlashId
    rxq_count := h.queue.count
    rxq_depth := h.queue.depth
    overrun_bounded := h.queue.overrun }

/-- The errors that keep no type and no checksum. -/
theorem Receiving.receiverInv_raiseDecodeError {s : State} (h : Receiving s) {e : DecErr}
    (hne : e ≠ .checksumMismatch) : ReceiverInv (raiseDecodeError e (endReception s)) :=
  h.receiverInv_of_error (t := s.rspType) (c := s.rspChecksum) (k := s.rspCalcChecksum) (fun _ => h.type_cleared)
    fun heq => absurd heq hne

/-- `Parse` on a state without identifiers, as a whole: an identifier comes only with its kind (R29, R152, R156, R157). -/
theorem parse_eq_of_cleared (t : Byte) (p : List Byte) {s : State} (h : ResponseCleared s) :
    ∃ chip chipValid flash flashValid,
      parse t p s = { s with
        rspKind := responseKind t, statusValid := !p.isEmpty, rspStatus := p.headD 0
        rspDataLen := BitVec.ofNat 8 (p.length - 1), rspData := Memory.writeFrom [] 0 p.tail
        chipId := chip, chipIdValid := chipValid, flashId := flash, flashIdValid := flashValid } ∧
      (chipValid = true → responseKind t = .chipId) ∧ (chipValid = false → chip = 0) ∧
      (flashValid = true → responseKind t = .flashId) ∧ (flashValid = false → flash = 0) := by
  obtain ⟨_, hChip, hFlash, hStatus, _, _, hChipId, hFlashId, hData⟩ := h
  rcases parse_cases t p s with h | ⟨v, hk, h⟩ | ⟨v, hk, h⟩
  · exact ⟨0, false, 0, false, by simp [parseCommon_eq, *], by simp⟩
  · exact ⟨v, true, 0, false, by simp [parseCommon_eq, *], by simp [hk]⟩
  · exact ⟨0, false, v, true, by simp [parseCommon_eq, *], by simp [hk]⟩

/-- A reception that ends with a response (R126). -/
theorem Receiving.receiverInv_frameOk {s : State} (h : Receiving s) (t : Byte) {pl : List Byte} (c k : Byte)
    (hpl : pl.length ≤ Config.maxPayload) : ReceiverInv (frameOk t pl c k (endReception s)) := by
  have hDataLen : (BitVec.ofNat 8 (pl.length - 1)).toNat = pl.tail.length := by
    simp only [Config.maxPayload] at hpl
    rw [List.length_tail]
    exact Nat.mod_eq_of_lt (by omega)
  obtain ⟨chip, chipValid, flash, flashValid, heq, hChipKind, hChipZero, hFlashKind, hFlashZero⟩ :=
    parse_eq_of_cleared t pl (s := { endReception s with
      rspValid := true, decErr := .none, rspType := t, rspChecksum := c, rspCalcChecksum := k }) h.cleared
  rw [frameOk, heq]
  exact {
    valid_done := fun _ => ⟨rfl, rfl⟩
    error_done := fun hne => absurd rfl hne
    cleared := by simp
    type_cleared := by simp
    mismatch_verified := by simp
    armed_running := fun hne => absurd rfl hne
    waiting := by simp
    collecting := by simp
    rxbuf_zero := h.rxbuf_zero
    rspData_zero := fun i hi => by
      rw [hDataLen] at hi
      rw [Memory.read_writeFrom i rfl, if_neg (by omega)]
      rfl
    rspDataLen_le := by
      simp only [hDataLen, List.length_tail, Config.maxPayload, Config.maxData] at *
      omega
    chip_kind := hChipKind
    chip_zero := hChipZero
    flash_kind := hFlashKind
    flash_zero := hFlashZero
    rxq_count := h.queue.count
    rxq_depth := h.queue.depth
    overrun_bounded := h.queue.overrun }

/-- However a reception ends, the invariant holds (R125-R127). -/
theorem Receiving.receiverInv_finishFrame {s : State} (h : Receiving s) : ReceiverInv (finishFrame Config.params s) := by
  rcases finishFrame_cases Config.params s with ⟨t, pl, c, k, hd, hf⟩ | hf | hf | ⟨t, c, k, hv, hf⟩ <;> rw [hf]
  · exact h.receiverInv_frameOk t c k (length_le_of_decodeFrame_decoded hd)
  · exact h.receiverInv_raiseDecodeError (by decide)
  · exact h.receiverInv_raiseDecodeError (by decide)
  · exact h.receiverInv_of_error (fun hne => absurd rfl hne) fun _ => hv

/-! ### The receiver's steps keep its invariant -/

/-- The length byte (R122): 0 ends the reception, any other starts the collection. -/
theorem Receiving.receiverInv_takeLength {s : State} (h : Receiving s) (hdone : s.rspDone = false) (hcount : s.rxCount = 0)
    (b : Byte) : ReceiverInv (takeLength Config.params b s) := by
  have htaken : Receiving { s with rspLength := b, rxCount := 0 } := { h with rxbuf_zero := hcount ▸ h.rxbuf_zero }
  unfold takeLength
  split
  · exact htaken.receiverInv_finishFrame
  · rename_i hb
    have hpos : b.toNat ≠ 0 := fun h0 => hb (BitVec.eq_of_toNat_eq h0)
    refine Receiving.receiverInv { htaken with } (fun _ => hdone) (by simp) fun _ => ⟨?_, ?_⟩
    · exact Nat.one_le_iff_ne_zero.2 hpos
    · exact Nat.pos_of_ne_zero hpos

/-- A body byte (R123): the last one ends the reception, any other leaves the count below the length. -/
theorem Receiving.receiverInv_takeBody {s : State} (h : Receiving s) (hdone : s.rspDone = false)
    (hwait : s.rxState ≠ .waitLen) (hcount : s.rxCount.toNat < s.rspLength.toNat) (b : Byte) :
    ReceiverInv (takeBody Config.params b s) := by
  have hlen := s.rspLength.isLt
  have hnext : (s.rxCount + 1#8).toNat = s.rxCount.toNat + 1 := by
    rw [BitVec.toNat_add]
    exact Nat.mod_eq_of_lt (by simp; omega)
  have hstored : Receiving { s with rxbuf := s.rxbuf.write s.rxCount.toNat b, rxCount := s.rxCount + 1#8 } :=
    { h with
      rxbuf_zero := fun i hi => by
        rw [hnext] at hi
        rw [Memory.read_write_other (by omega)]
        exact h.rxbuf_zero i (by omega) }
  unfold takeBody
  split
  · exact hstored.receiverInv_finishFrame
  · rename_i hne
    have hne' : s.rxCount.toNat + 1 ≠ s.rspLength.toNat := fun heq => hne (BitVec.eq_of_toNat_eq (hnext.trans heq))
    refine hstored.receiverInv (fun _ => hdone) (fun hw => absurd hw hwait) fun _ => ⟨by simp only; omega, ?_⟩
    simp only [hnext]
    omega

theorem ReceiverInv.receiverStep {s : State} (h : ReceiverInv s) : ReceiverInv (receiverStep Config.params s) := by
  rcases receiverStep_cases Config.params s with ⟨_, hr⟩ | ⟨b, q, hq, hs, hr⟩ | ⟨b, q, hq, hs, hr⟩ <;> rw [hr]
  · exact h
  all_goals
    have harmed : s.rxState ≠ .idle := by simp [hs]
    have hpopped : Receiving (setRxq q s) := { h.receiving harmed with queue := h.queue.pop hq }
  · exact hpopped.receiverInv_takeLength (h.armed_running harmed) (h.waiting hs).2 b
  · exact hpopped.receiverInv_takeBody (h.armed_running harmed) (by simp [hs]) (h.collecting hs).2 b

theorem ReceiverInv.readTimeout {s : State} (h : ReceiverInv s) : ReceiverInv (readTimeout Config.params s) := by
  rcases readTimeout_cases Config.params s with ⟨_, hr⟩ | ⟨hs, _, hr⟩ | ⟨hs, _, hr⟩ <;> rw [hr]
  · exact h
  · exact (h.receiving (by simp [hs])).receiverInv_raiseDecodeError (by decide)
  · exact (h.receiving (by simp [hs])).receiverInv_finishFrame

/-- `ClearResponse` leaves a state in which a reception may run (R129). -/
theorem QueueInv.receiving_clearResponse {s : State} (h : QueueInv s.rxq s.rxqCount s.rxOverrun) :
    Receiving (clearResponse s) where
  no_response := rfl
  no_error := rfl
  cleared := ⟨rfl, rfl, rfl, rfl, rfl, rfl, rfl, rfl, rfl⟩
  type_cleared := ⟨rfl, rfl, rfl⟩
  rxbuf_zero _ _ := rfl
  queue := h

theorem ReceiverInv.arm {s : State} (h : ReceiverInv s) :
    ReceiverInv { clearResponse s with rxState := .waitLen, hostErr := .none } :=
  Receiving.receiverInv { h.queue.receiving_clearResponse with } (fun _ => rfl) (fun _ => ⟨rfl, rfl⟩) (by simp)

theorem queueInv_nil : QueueInv [] 0 false := ⟨rfl, fun _ _ => Nat.zero_le _, by simp⟩

/-- CLEAR establishes the receiver's invariant, from any state (R130). -/
theorem receiverInv_clear (s : State) :
    ReceiverInv { setRxq [] (clearResponse s) with rxState := .idle, rxOverrun := false, hostErr := .none } :=
  have hflushed : Receiving (clearResponse { s with rxq := [], rxqCount := 0, rxOverrun := false }) :=
    QueueInv.receiving_clearResponse queueInv_nil
  Receiving.receiverInv { hflushed with } (fun hne => absurd rfl hne) (by simp) (by simp)

/-! ### The whole invariant -/

theorem receiverInv_reset : ReceiverInv State.reset := (receiverInv_clear State.reset).of_sameReceiveSide rfl

/-- Settles O39: the reset state's receive side is the one CLEAR leaves, its stream the empty sequence of frames. -/
theorem resetSatisfiesInvariant : Obligations.ResetSatisfiesInvariant :=
  ⟨⟨reset_buffers_wf, ⟨rfl, rfl, rfl⟩, receiverInv_reset⟩, txsFramed_reset⟩

theorem Inv.of_filled {s t : State} (h : Inv s) (hst : BuffersFilled s t) (ht : ReceiverInv t) : Inv t := by
  obtain ⟨hc, hr, hi⟩ := h
  exact ⟨hc.of_filled hst, hr.of_filled hi hst, ht⟩

/-- A change on the host's side that leaves PBUF keeps the invariant. -/
theorem Inv.of_sameReceiveSide {s t : State} (h : Inv s) (hst : SameReceiveSide s t) (hp : t.pbuf = s.pbuf) : Inv t := by
  obtain ⟨_, _, hi⟩ := id h
  exact h.of_filled (buffersFilled_of_eq hp (by rw [hst]) (by rw [hst])) (hi.of_sameReceiveSide hst)

/-- RECV and CLEAR empty the two receive buffers and leave PBUF. -/
theorem Inv.of_receive_cleared {s t : State} (h : Inv s) (hp : t.pbuf = s.pbuf) (hx : t.rxbuf = []) (hd : t.rspData = [])
    (ht : ReceiverInv t) : Inv t := by
  obtain ⟨⟨hcanonical, _, _⟩, ⟨hrange, _, _⟩, _⟩ := h
  unfold Inv BuffersCanonical BuffersInRange
  rw [hp, hx, hd]
  exact ⟨⟨hcanonical, rfl, rfl⟩, ⟨hrange, rfl, rfl⟩, ht⟩

theorem inv_keptByOperations : KeptByOperations Inv where
  pending _ _ hs := hs.of_sameReceiveSide rfl rfl
  reset := resetSatisfiesInvariant.1
  busRead _ _ hs := hs.of_sameReceiveSide rfl rfl
  hostError _ _ hs := hs.of_sameReceiveSide rfl rfl
  store _ _ _ _ hs h :=
    let ⟨hc, hr, hi⟩ := hs
    ⟨hc.storeReg h, hr.storeReg h, hi.of_sameReceiveSide (sameReceiveSide_storeReg h)⟩
  emit _ _ _ _ hs := hs.of_sameReceiveSide rfl rfl
  arm _ hs := let ⟨_, _, hi⟩ := hs; hs.of_receive_cleared rfl rfl rfl hi.arm
  clear s hs := hs.of_receive_cleared rfl rfl rfl (receiverInv_clear s)
  rxByte s b hs := let ⟨_, _, hi⟩ := hs; hs.of_filled (buffersFilled_deliverByte _ b s) (hi.deliverByte b)
  timeout s hs := let ⟨_, _, hi⟩ := hs; hs.of_filled (buffersFilled_readTimeout _ s) hi.readTimeout
  rxStep s hs := let ⟨_, _, hi⟩ := hs; hs.of_filled (buffersFilled_receiverStep _ s) hi.receiverStep

/-- Settles O40: every operation keeps the invariant, so every step does. -/
theorem stepKeepsInvariant : Obligations.StepKeepsInvariant := fun _ _ => inv_keptByOperations.step

end Sys2Proof.Machine
end

section
/-! What acts at a step (R69, R93, R94, R121), one equation of `step` per shape of the pending inputs: obligation O3. -/

namespace Sys2Proof.Machine

/-! ### What the two conditions of a step say -/

/-- RX_STEP is enabled while the receiver is armed and a byte waits (R121). -/
theorem rxStepEnabled_iff (s : State) : rxStepEnabled s = true ↔ s.rxState ≠ .idle ∧ s.rxq ≠ [] := by
  simp [rxStepEnabled]

theorem rxStepEnabled_eq_false_iff (s : State) : rxStepEnabled s = false ↔ s.rxState = .idle ∨ s.rxq = [] := by
  rw [← Bool.not_eq_true, rxStepEnabled_iff, not_and_or, not_not, not_not]

/-- KIND 0 is no event, whatever its DATA (R94). -/
theorem decodeEvent_kind_zero (d : Byte) : decodeEvent (0b00#2 ++ d) = .error .noEvent := by
  rw [decodeEvent, BitVec.extractLsb'_append_eq_left]
  rfl

/-! ### A step with an input pending -/

theorem step_of_bus {s : State} {w : BitVec 43} {rest : List Input} (h : s.pending = .bus w :: rest) :
    step s = exec (decodeBus w) { s with pending := rest } := by
  rw [step, fetch, h]

theorem step_of_event {s : State} {w : BitVec 10} {rest : List Input} {i : Instr} (h : s.pending = .event w :: rest)
    (hw : decodeEvent w = .ok i) : step s = exec i { s with pending := rest } := by
  simp only [step, fetch, h, hw]

theorem step_of_event_rejected {s : State} {w : BitVec 10} {rest : List Input} {e : Reject}
    (h : s.pending = .event w :: rest) (hw : decodeEvent w = .error e) : step s = .next { s with pending := rest } := by
  simp only [step, fetch, h, hw]

/-! ### A step with nothing pending -/

theorem step_of_rxStepEnabled {s : State} (h : s.pending = []) (hen : rxStepEnabled s = true) :
    step s = exec .rxStep s := by
  simp only [step, fetch, h, if_pos hen]

theorem step_of_not_rxStepEnabled {s : State} (h : s.pending = []) (hoff : rxStepEnabled s = false) :
    step s = .next s := by
  simp only [step, fetch, h, hoff, Bool.false_eq_true, if_false]

/-- Settles O3, one equation of `step` per clause. -/
theorem stepRunsTheDecodedInput : Obligations.StepRunsTheDecodedInput := by
  refine ⟨?bus, ?event, ?noEvent, ?enabled, ?nobody⟩
  case bus => exact fun s w rest h => ⟨decodeBus w, rfl, step_of_bus h⟩
  case event => exact fun s w rest i h hw => step_of_event h hw
  case noEvent => exact fun s d rest h => step_of_event_rejected h (decodeEvent_kind_zero d)
  case enabled => exact fun s h harmed hq => step_of_rxStepEnabled h ((rxStepEnabled_iff s).2 ⟨harmed, hq⟩)
  case nobody => exact fun s h hoff => step_of_not_rxStepEnabled h ((rxStepEnabled_eq_false_iff s).2 hoff)

end Sys2Proof.Machine
end

section
/-! The encodings (R80, R87, R90-R95, R150): what the encoder writes the decoder reads back, what the decoder accepts the
encoder writes again, and the layout of an encoded frame: obligations O4, O34, O37, O38. -/

namespace Sys2Proof.Machine

/-! ### CMD values -/

/-- A table answers with entries of its own. -/
theorem mem_of_lookup_eq_some {α : Type} {l : List (Byte × α)} {t : Byte} {a : α} (h : l.lookup t = some a) :
    (t, a) ∈ l := by
  obtain ⟨l₁, l₂, rfl, -⟩ := List.lookup_eq_some_iff.1 h
  exact List.mem_append_right l₁ List.mem_cons_self

/-- SERIALIZE writes OP 0 and the command's type (R91). -/
theorem encodeCommand_of_lookup {t : Byte} {c : Command} (h : serializeTable.lookup t = some c) :
    encodeCommand c = 0#16 ++ 0#8 ++ t := by
  have rows : ∀ e ∈ serializeTable, encodeCommand e.2 = 0#16 ++ 0#8 ++ e.1 := by decide
  exact rows (t, c) (mem_of_lookup_eq_some h)

/-- The fields of a CMD value that is an operation (R90, R91): one case per OP. -/
theorem decodeCommand_ok_cases {v : Word} {c : Command} (h : decodeCommand v = .ok c) :
    cmdReserved v = 0#16 ∧
      ((cmdOp v = 0#8 ∧ serializeTable.lookup (cmdType v) = some c) ∨
        (cmdOp v = 1#8 ∧ c = .encodeRaw (cmdType v)) ∨
        (cmdOp v = 2#8 ∧ cmdType v = 0#8 ∧ c = .recv) ∨
        (cmdOp v = 3#8 ∧ cmdType v = 0#8 ∧ c = .clear)) := by
  unfold decodeCommand at h
  split at h
  · cases h
  rename_i hReserved
  refine ⟨not_not.1 hReserved, ?_⟩
  split at h
  · cases h
  rename_i hLegal
  split at h
  · rename_i hOp
    split at h
    · rename_i hLookup
      cases h
      exact .inl ⟨hOp, hLookup⟩
    · cases h
  rename_i hNotZero
  split at h
  · rename_i hOp
    cases h
    exact .inr (.inl ⟨hOp, rfl⟩)
  rename_i hNotOne
  split at h
  · cases h
  rename_i hType
  split at h
  · rename_i hOp
    cases h
    exact .inr (.inr (.inl ⟨hOp, not_not.1 hType, rfl⟩))
  rename_i hNotTwo
  cases h
  exact .inr (.inr (.inr ⟨by bv_omega, not_not.1 hType, rfl⟩))

/-- A CMD value that is an operation is the one the encoder writes for it: R90's fields leave no bit ignored. -/
theorem encodeCommand_of_decodeCommand {v : Word} {c : Command} (h : decodeCommand v = .ok c) : encodeCommand c = v := by
  obtain ⟨hReserved, hOp⟩ := decodeCommand_ok_cases h
  rw [← cmd_fields v, hReserved]
  rcases hOp with ⟨hOp, hLookup⟩ | ⟨hOp, rfl⟩ | ⟨hOp, hType, rfl⟩ | ⟨hOp, hType, rfl⟩
  · rw [hOp, encodeCommand_of_lookup hLookup]
  · rw [hOp]; rfl
  · rw [hOp, hType]; rfl
  · rw [hOp, hType]; rfl

/-- OP 1 takes any type byte (R91, R115). -/
theorem decodeCommand_encodeRaw (t : Byte) : decodeCommand (encodeCommand (.encodeRaw t)) = .ok (.encodeRaw t) := by
  have hFields : encodeCommand (.encodeRaw t) = (0#16 ++ 1#8) ++ t := rfl
  have hReserved : cmdReserved (encodeCommand (.encodeRaw t)) = 0#16 := by
    rw [cmdReserved, hFields, BitVec.extractLsb'_append_eq_of_le (by decide)]
    rfl
  have hOp : cmdOp (encodeCommand (.encodeRaw t)) = 1#8 := by
    rw [cmdOp, hFields, BitVec.extractLsb'_append_eq_of_le (by decide)]
    rfl
  have hType : cmdType (encodeCommand (.encodeRaw t)) = t := BitVec.extractLsb'_append_eq_right
  rw [decodeCommand, hReserved, hOp, hType]
  rfl

theorem decodeCommand_encodeCommand (c : Command) : decodeCommand (encodeCommand c) = .ok c := by
  cases c with
  | encodeRaw t => exact decodeCommand_encodeRaw t
  | flashErase | flashWrite | flashRead | ramRead | flashId | changeBaud | selectFlashType | chipId | recv | clear => rfl

/-- The operation of a CMD value is the one of its table row (R95). -/
theorem encode_toInstr (c : Command) : encode c.toInstr = .cmd (encodeCommand c) := by cases c <;> rfl

/-- Only a CMD value that is an operation decodes (R92). -/
theorem decode_cmd_ok_iff {v : Word} {i : Instr} :
    decode (.cmd v) = .ok i ↔ ∃ c, decodeCommand v = .ok c ∧ c.toInstr = i := by
  cases h : decodeCommand v <;> simp [decode, h]

theorem decode_encode_toInstr (c : Command) : decode (encode c.toInstr) = .ok c.toInstr := by
  rw [encode_toInstr]
  exact decode_cmd_ok_iff.2 ⟨c, decodeCommand_encodeCommand c, rfl⟩

/-! ### Bus transactions and event words -/

/-- A bus word's three fields, W, N and DATA (R93). -/
theorem decodeBus_fields (w : BitVec 1) (n : RegNum) (v : Word) :
    decodeBus (w ++ n ++ v) = if w = 1#1 then .regWrite n v else .regRead n := by
  have hWrite : (w ++ n ++ v).getLsbD 42 = true ↔ w = 1#1 := by
    rw [BitVec.getLsbD_append, if_neg (by decide), BitVec.getLsbD_append, if_neg (by decide)]
    revert w
    decide
  have hNumber : (w ++ n ++ v).extractLsb' 32 10 = n := by
    rw [BitVec.extractLsb'_append_eq_of_le le_rfl]
    exact BitVec.extractLsb'_append_eq_right
  have hData : (w ++ n ++ v).extractLsb' 0 32 = v := BitVec.extractLsb'_append_eq_right
  simp only [decodeBus, hNumber, hData, hWrite]

theorem decodeBus_write (n : RegNum) (v : Word) : decodeBus (1#1 ++ n ++ v) = .regWrite n v := decodeBus_fields 1#1 n v

/-- A read ignores DATA (R93). -/
theorem decodeBus_read (n : RegNum) (v : Word) : decodeBus (0#1 ++ n ++ v) = .regRead n := decodeBus_fields 0#1 n v

theorem decodeEvent_rxByte (b : Byte) : decodeEvent (0b01#2 ++ b) = .ok (.rxByte b) := by
  rw [decodeEvent, BitVec.extractLsb'_append_eq_left, BitVec.extractLsb'_append_eq_right]
  rfl

/-- RX_TIMEOUT ignores DATA (R94). -/
theorem decodeEvent_rxTimeout (b : Byte) : decodeEvent (0b10#2 ++ b) = .ok .rxTimeout := by
  rw [decodeEvent, BitVec.extractLsb'_append_eq_left]
  rfl

/-- RX_STEP ignores DATA (R94). -/
theorem decodeEvent_rxStep (b : Byte) : decodeEvent (0b11#2 ++ b) = .ok .rxStep := by
  rw [decodeEvent, BitVec.extractLsb'_append_eq_left]
  rfl

/-! ### Received type bytes -/

/-- A type byte whose kind is not GENERIC is a key of the registry (R150, R152). -/
theorem mem_registry_of_responseKind {t : Byte} (h : responseKind t ≠ .generic) : (t, responseKind t) ∈ registry := by
  cases hLookup : registry.lookup t with
  | none => exact absurd (by rw [responseKind, hLookup]; rfl) h
  | some k =>
    have hKind : responseKind t = k := by rw [responseKind, hLookup]; rfl
    exact hKind ▸ mem_of_lookup_eq_some hLookup

theorem decodeResponse_of_generic {t : Byte} (h : responseKind t = .generic) : decodeResponse t = .rspGeneric t := by
  rw [decodeResponse, h]

/-- The encoder writes the registry's key of a parse rule (R150), and the type byte itself for the generic one. -/
theorem encode_decodeResponse (t : Byte) : encode (decodeResponse t) = .response t := by
  by_cases hKind : responseKind t = .generic
  · rw [decodeResponse_of_generic hKind, encode]
  · have rows : ∀ e ∈ registry, encode (decodeResponse e.1) = .response e.1 := by decide
    exact rows _ (mem_registry_of_responseKind hKind)

/-! ### Decode and encode agree -/

/-- Settles O37, format by format (R95). -/
theorem decodeInvertsEncode : Obligations.DecodeInvertsEncode := by
  intro i hwf
  cases i with
  | flashErase => exact decode_encode_toInstr .flashErase
  | flashWrite => exact decode_encode_toInstr .flashWrite
  | flashRead => exact decode_encode_toInstr .flashRead
  | ramRead => exact decode_encode_toInstr .ramRead
  | flashId => exact decode_encode_toInstr .flashId
  | changeBaud => exact decode_encode_toInstr .changeBaud
  | selectFlashType => exact decode_encode_toInstr .selectFlashType
  | chipId => exact decode_encode_toInstr .chipId
  | encodeRaw t => exact decode_encode_toInstr (.encodeRaw t)
  | recv => exact decode_encode_toInstr .recv
  | clear => exact decode_encode_toInstr .clear
  | regRead n => exact congrArg Except.ok (decodeBus_read n 0)
  | regWrite n v => exact congrArg Except.ok (decodeBus_write n v)
  | rxByte b => exact decodeEvent_rxByte b
  | rxTimeout => exact decodeEvent_rxTimeout 0
  | rxStep => exact decodeEvent_rxStep 0
  | rspChipId | rspFlashId | rspBaudAck => rfl
  | rspGeneric t => exact congrArg Except.ok (decodeResponse_of_generic (of_decide_eq_true hwf))

/-- Settles O38: a CMD value, a write, a byte and a type byte have no ignored bit; the encoder writes those of a read and
of the two other events 0. -/
theorem encodeInvertsDecode : Obligations.EncodeInvertsDecode := by
  refine ⟨?cmd, ?write, ?read, ?rxByte, ?rxTimeout, ?rxStep, encode_decodeResponse⟩
  case cmd =>
    intro v i h
    obtain ⟨c, hc, rfl⟩ := decode_cmd_ok_iff.1 h
    rw [encode_toInstr, encodeCommand_of_decodeCommand hc]
  case write => exact fun n v => congrArg encode (decodeBus_write n v)
  case read => exact fun n v => congrArg encode (decodeBus_read n v)
  case rxByte => exact fun b => ⟨.rxByte b, decodeEvent_rxByte b, rfl⟩
  case rxTimeout => exact fun b => ⟨.rxTimeout, decodeEvent_rxTimeout b, rfl⟩
  case rxStep => exact fun b => ⟨.rxStep, decodeEvent_rxStep b, rfl⟩

/-- Settles O4: each word is, bit for bit, the encoding of its row, which decodes to the row (O37). -/
theorem specWordsDecodeToTheirRows : Obligations.SpecWordsDecodeToTheirRows :=
  ⟨decodeInvertsEncode .flashErase rfl, decodeInvertsEncode .selectFlashType rfl,
    decodeInvertsEncode (.encodeRaw 0xAB) rfl, decodeInvertsEncode .recv rfl,
    decodeInvertsEncode .clear rfl, decodeInvertsEncode (.regWrite 0x004 115200) rfl,
    decodeInvertsEncode (.regRead 0x010) rfl, decodeInvertsEncode (.rxByte 0x03) rfl, decodeInvertsEncode .rxTimeout rfl,
    decodeInvertsEncode .rxStep rfl, decodeInvertsEncode .rspChipId rfl, decodeInvertsEncode .rspFlashId rfl,
    decodeInvertsEncode .rspBaudAck rfl, decodeInvertsEncode (.rspGeneric 0x0C) rfl⟩

/-! ### Encoded frames -/

/-- The bytes of a length that fits one byte (R11). -/
theorem be16_ofNat {n : Nat} (h : n < 256) : be16 (BitVec.ofNat 16 n) = [0, BitVec.ofNat 8 n] := by
  have hHigh : (BitVec.ofNat 16 n).extractLsb' 8 8 = 0 := by
    apply BitVec.eq_of_toNat_eq
    simp [Nat.shiftRight_eq_div_pow]
    omega
  have hLow : (BitVec.ofNat 16 n).extractLsb' 0 8 = BitVec.ofNat 8 n := by
    apply BitVec.eq_of_toNat_eq
    simp
  rw [be16, hHigh, hLow]

/-- The checksum of a payload Encode defines (R111). -/
theorem csum_eq (t : Byte) {p : List Byte} (h : p.length ≤ 253) :
    csum t p = t ^^^ BitVec.ofNat 8 (p.length + 2) ^^^ xorBytes p := by
  rw [csum, be16_ofNat (by omega)]
  simp [BitVec.xor_assoc]

/-- The checksum cancels every other byte of the frame (R87). -/
theorem xorBytes_encodeFrame (t : Byte) {p : List Byte} (h : p.length ≤ 253) : xorBytes (encodeFrame t p) = 0 := by
  have hOthers : xorBytes ([BitVec.ofNat 8 (p.length + 2), t] ++ p) = csum t p := by
    rw [csum_eq t h, BitVec.xor_comm t]
    simp [BitVec.xor_assoc]
  rw [encodeFrame, xorBytes_append, hOthers]
  simp

/-- The payload stands after LEN and the type (R80). -/
theorem getD_payload_encodeFrame (t : Byte) (p : List Byte) {i : Nat} (hi : i < p.length) :
    (encodeFrame t p).getD (2 + i) 0 = p.getD i 0 := by
  rw [encodeFrame, List.append_assoc, List.getD_append_right _ _ _ _ (by simp), List.getD_append _ _ _ _ (by simpa)]
  simp

/-- Settles O34, field by field, and the XOR by R111's form of the checksum. -/
theorem encodedFrameLayoutAndXor : Obligations.EncodedFrameLayoutAndXor := by
  intro t p hp f
  have hLen : (f.getD 0 0).toNat = p.length + 2 := Nat.mod_eq_of_lt (by omega)
  have hXor : f.foldr (· ^^^ ·) 0 = 0 := xorBytes_eq_foldr f ▸ xorBytes_encodeFrame t hp
  exact ⟨length_encodeFrame t p, hLen, rfl, fun i hi => getD_payload_encodeFrame t p hi, getD_last_encodeFrame t p, hXor⟩

end Sys2Proof.Machine
end

section
/-! The pure codec (R110-R119): the checksum's closed form and its independence of order, the checks of Decode, and Decode
after Encode: obligations O32, O33, O35, O36. -/

namespace Sys2Proof.Machine

/-! ### The checksum -/

/-- Settles O32. -/
theorem checksumClosedForm : Obligations.ChecksumClosedForm := by
  intro t p hp
  rw [csum_eq t hp, xorBytes_eq_foldr]

theorem xorBytes_perm {p q : List Byte} (h : p.Perm q) : xorBytes p = xorBytes q := h.foldl_eq 0

/-- The checksum sees a payload only through its length and its XOR (R110). -/
theorem csum_perm (t : Byte) {p q : List Byte} (h : p.Perm q) : csum t p = csum t q := by
  rw [csum, csum, h.length_eq, xorBytes_append _ p, xorBytes_append _ q, xorBytes_perm h]

/-- Settles O33. -/
theorem checksumIgnoresPayloadOrder : Obligations.ChecksumIgnoresPayloadOrder :=
  ⟨fun t _ _ => csum_perm t, fun t _ _ => csum_perm t List.perm_append_comm⟩

/-! ### Decode -/

/-- The first check (R117). -/
theorem decodeFrame_of_len_lt {verify : Bool} {len : Byte} {raw : List Byte} (h : len.toNat < 2) :
    decodeFrame verify len raw = .frameTooShort := if_pos h

/-- The second check (R117). -/
theorem decodeFrame_of_length_ne {verify : Bool} {len : Byte} {raw : List Byte} (hlen : 2 ≤ len.toNat)
    (h : raw.length ≠ len.toNat) : decodeFrame verify len raw = .lengthMismatch := by
  rw [decodeFrame, if_neg (by omega), if_pos h]

/-- A body of the declared length is split into type, payload and checksum, and the checksums are compared (R116, R118). -/
theorem decodeFrame_of_body {verify : Bool} {len : Byte} (t c : Byte) {p : List Byte} (hlen : len.toNat = p.length + 2) :
    decodeFrame verify len (t :: (p ++ [c])) =
      if verify = true ∧ csum t p ≠ c then .checksumMismatch t c (csum t p) else .decoded t p c (csum t p) := by
  have hChecksum : (t :: (p ++ [c])).getD (p.length + 1) 0 = c := by simp
  have hPayload : ((t :: (p ++ [c])).drop 1).take p.length = p := by simp
  rw [decodeFrame, if_neg (by omega), if_neg (by simp [hlen])]
  simp only [hlen, Nat.add_sub_cancel, show p.length + 2 - 1 = p.length + 1 from rfl, hChecksum, hPayload]
  simp [and_comm]

/-- Settles O35, one lemma for each check. -/
theorem decodeChecksInOrder : Obligations.DecodeChecksInOrder := by
  intro verify len raw
  refine ⟨decodeFrame_of_len_lt, decodeFrame_of_length_ne, ?_⟩
  rintro t c p rfl hlen
  exact decodeFrame_of_body t c hlen

/-- The bytes after LEN of an encoded frame pass every check (R119). -/
theorem decodeFrame_encodeFrame (verify : Bool) (t : Byte) {p : List Byte} (hp : p.length ≤ 253) :
    decodeFrame verify (BitVec.ofNat 8 (p.length + 2)) (t :: (p ++ [csum t p])) = .decoded t p (csum t p) (csum t p) := by
  rw [decodeFrame_of_body t _ (Nat.mod_eq_of_lt (by omega)), if_neg (by simp)]

/-- Settles O36. -/
theorem codecRoundTrip : Obligations.CodecRoundTrip := fun verify t _ hp => decodeFrame_encodeFrame verify t hp

end Sys2Proof.Machine
end

section
/-! The operations of a CMD value on the codec (R115, R129, R130): obligations O11-O13. -/

namespace Sys2Proof.Machine

/-- ENCODE_RAW's payload is the first PBUF_LEN entries of PBUF (R45). -/
theorem pbufBytes_eq_map (s : State) : pbufBytes s = (List.range s.pbufLen.toNat).map fun i => Memory.read s.pbuf i := by
  simp [pbufBytes, Memory.slice]

/-- Settles O11. -/
theorem encodeRawEmitsBuffer : Obligations.EncodeRawEmitsBuffer := by
  refine ⟨fun t => decode_encode_toInstr (.encodeRaw t), ?emits, ?refused⟩
  case emits =>
    intro t s hlen data c
    have hData : pbufBytes s = data := pbufBytes_eq_map s
    have hLength : data.length = s.pbufLen.toNat := hData ▸ length_pbufBytes s
    have hLen : BitVec.ofNat 8 (data.length + 2) = s.pbufLen + 2 := by
      rw [hLength]
      bv_omega
    have hTxLen : BitVec.ofNat 9 (data.length + 3) = s.pbufLen.setWidth 9 + 3 := by
      rw [hLength]
      bv_omega
    have hCsum : csum t data = c := by rw [csum_eq t (hLength ▸ hlen), hLen, xorBytes_eq_foldr]
    have hExec : exec (.encodeRaw t) s = .next (emit t (pbufBytes s) s) := if_neg (Nat.not_lt.2 hlen)
    rw [hExec, hData, emit_eq, hTxLen, encodeFrame, hLen, hCsum]
  case refused => exact fun t s hlen => if_pos hlen

/-- Settles O12, by R129's condition on RX_STATE. -/
theorem recvArmsAnIdleReceiver : Obligations.RecvArmsAnIdleReceiver :=
  ⟨decode_encode_toInstr .recv, fun _ hidle => if_neg (not_not.2 hidle), fun _ harmed => if_pos harmed⟩

/-- CLEAR leaves STATUS as reset does (R130). -/
theorem statusWord_clear (s : State) :
    statusWord { setRxq [] (clearResponse s) with rxState := .idle, rxOverrun := false, hostErr := .none } =
      statusWord State.reset := rfl

/-- Settles O13. -/
theorem clearResetsTheReceiveSide : Obligations.ClearResetsTheReceiveSide :=
  ⟨decode_encode_toInstr .clear, fun s => ⟨_, rfl, statusWord_clear s, rfl⟩⟩

end Sys2Proof.Machine
end

section
/-! The receiver event by event (R113, R120-R128), one equation per case of each: obligations O21-O27, O46. -/

namespace Sys2Proof.Machine

/-! ### What reaches RXBUF -/

/-- A write outside a slice leaves it. -/
theorem Memory.slice_write_of_le {m : Memory} {i n j : Nat} (b : Byte) (h : i + n ≤ j) :
    (m.write j b).slice i n = m.slice i n := by
  refine List.map_congr_left fun k hk => Memory.read_write_other ?_ m
  have := List.mem_range.1 hk
  omega

/-- A byte written after a slice extends it. -/
theorem Memory.slice_write_end {m : Memory} (h : m.wf = true) (i n : Nat) (b : Byte) :
    (m.write (n + i) b).slice i (n + 1) = m.slice i n ++ [b] := by
  rw [← Memory.slice_write_of_le b (Nat.add_comm i n).le, Memory.slice, List.range_succ, List.map_append, Memory.slice,
    List.map_singleton, Memory.read_write h, if_pos (Nat.add_comm i n)]

theorem Memory.slice_succ (m : Memory) (i n : Nat) : m.slice i (n + 1) = m.read i :: m.slice (i + 1) n := by
  rw [Memory.slice, List.range_succ_eq_map, List.map_cons, List.map_map, Memory.slice]
  simp [Function.comp_def, Nat.add_comm, Nat.add_left_comm]

/-- A body of `n + 2` bytes whose last one has just been written: its first byte, its payload, its last byte (R116). -/
theorem Memory.slice_write_last {m : Memory} (h : m.wf = true) (n : Nat) (b : Byte) :
    (m.write (n + 1) b).slice 0 (n + 2) = m.read 0 :: (m.slice 1 n ++ [b]) := by
  rw [Memory.slice_succ, Memory.read_write_other (Nat.succ_ne_zero n).symm, Memory.slice_write_end h]

/-! ### The end of a reception -/

/-- A length byte of 0 or 1 (R116, R127). -/
theorem finishFrame_of_len_lt (p : Config.Params) {s : State} (h : s.rspLength.toNat < 2) :
    finishFrame p s = raiseDecodeError .frameTooShort (endReception s) := by
  rw [finishFrame, decodeFrame_of_len_lt h]

/-- A body of another length than the declared one (R116, R127). -/
theorem finishFrame_of_count_ne (p : Config.Params) {s : State} (hlen : 2 ≤ s.rspLength.toNat)
    (h : s.rxCount ≠ s.rspLength) : finishFrame p s = raiseDecodeError .lengthMismatch (endReception s) := by
  have hCount : (s.rxbuf.slice 0 s.rxCount.toNat).length ≠ s.rspLength.toNat := by
    rw [Memory.length_slice]
    exact fun heq => h (BitVec.eq_of_toNat_eq heq)
  rw [finishFrame, decodeFrame_of_length_ne hlen hCount]

/-- The parse rule that a type byte selects is a row of its own (R152; log 7). -/
theorem exec_decodeResponse (t : Byte) (s : State) :
    exec (decodeResponse t) s = .next (parse t (receivedPayload s) s) := by
  rw [decodeResponse, parse]
  cases responseKind t <;> rfl

/-- A body `t`, payload, `c` of the declared length: a checksum mismatch, or a response (R116, R118, R125-R127). -/
theorem finishFrame_of_body (p : Config.Params) {s : State} {t c : Byte} {pl : List Byte}
    (hbody : s.rxbuf.slice 0 s.rxCount.toNat = t :: (pl ++ [c])) (hlen : s.rspLength.toNat = pl.length + 2) :
    finishFrame p s =
      if p.verifyRxChecksum = true ∧ csum t pl ≠ c then
        { raiseDecodeError .checksumMismatch (endReception s) with
          rspType := t, rspChecksum := c, rspCalcChecksum := csum t pl }
      else frameOk t pl c (csum t pl) (endReception s) := by
  rw [finishFrame, hbody, decodeFrame_of_body _ _ hlen]
  by_cases hv : p.verifyRxChecksum = true ∧ csum t pl ≠ c
  · rw [if_pos hv, if_pos hv]
  · rw [if_neg hv, if_neg hv]

/-! ### A turn of RX_STEP -/

/-- RX_COUNT and the byte it counts next, compared with the length byte (R123). -/
theorem rxCount_succ_eq_iff {count len : Byte} (h : count.toNat < len.toNat) :
    count + 1#8 = len ↔ count.toNat + 1 = len.toNat := by
  bv_omega

/-- `s` with the length byte `len` taken, and `q` left in RXQ (R122). -/
def lengthTaken (len : Byte) (q : List Byte) (s : State) : State := { setRxq q s with rspLength := len, rxCount := 0 }

/-- `s` with the body byte `b` stored, and `q` left in RXQ (R123). -/
def bodyStored (b : Byte) (q : List Byte) (s : State) : State :=
  { setRxq q s with rxbuf := s.rxbuf.write s.rxCount.toNat b, rxCount := s.rxCount + 1#8 }

section
variable (p : Config.Params) {s : State} {b : Byte} {q : List Byte}

theorem receiverStep_of_disabled (h : s.rxState = .idle ∨ s.rxq = []) : receiverStep p s = s := by
  rcases receiverStep_cases p s with ⟨_, hr⟩ | ⟨b, q, hq, hs, _⟩ | ⟨b, q, hq, hs, _⟩
  · exact hr
  all_goals simp [hq, hs] at h

theorem receiverStep_of_waitLen (hs : s.rxState = .waitLen) (hq : s.rxq = b :: q) :
    receiverStep p s = takeLength p b (setRxq q s) := by
  simp only [receiverStep, hq, hs]

theorem receiverStep_of_len_zero (hs : s.rxState = .waitLen) (hq : s.rxq = 0 :: q) :
    receiverStep p s = raiseDecodeError .frameTooShort (endReception (lengthTaken 0 q s)) :=
  (receiverStep_of_waitLen p hs hq).trans (finishFrame_of_len_lt p (s := lengthTaken 0 q s) Nat.two_pos)

theorem receiverStep_of_len_ne_zero (hs : s.rxState = .waitLen) (hq : s.rxq = b :: q) (hlen : b ≠ 0) :
    receiverStep p s = { lengthTaken b q s with rxState := .collect } :=
  (receiverStep_of_waitLen p hs hq).trans (if_neg hlen)

theorem receiverStep_of_collect (hs : s.rxState = .collect) (hq : s.rxq = b :: q) :
    receiverStep p s = takeBody p b (setRxq q s) := by
  simp only [receiverStep, hq, hs]

/-- A body byte, more to come (R123). -/
theorem receiverStep_of_more (hs : s.rxState = .collect) (hq : s.rxq = b :: q)
    (h : s.rxCount.toNat + 1 < s.rspLength.toNat) : receiverStep p s = bodyStored b q s := by
  have hMore : s.rxCount + 1#8 ≠ s.rspLength := mt (rxCount_succ_eq_iff (by omega)).1 (by omega)
  exact (receiverStep_of_collect p hs hq).trans (if_neg hMore)

/-- The last body byte (R123). -/
theorem receiverStep_of_last (hs : s.rxState = .collect) (hq : s.rxq = b :: q)
    (h : s.rxCount.toNat + 1 = s.rspLength.toNat) :
    receiverStep p s = finishFrame p { bodyStored b q s with rxCount := s.rspLength } := by
  have hLast : s.rxCount + 1#8 = s.rspLength := (rxCount_succ_eq_iff (by omega)).2 h
  rw [receiverStep_of_collect p hs hq, ← hLast]
  exact if_pos hLast

/-! ### A read timeout -/

theorem readTimeout_of_waitLen (hs : s.rxState = .waitLen) (hq : s.rxq = []) : readTimeout p s = transportTimeout s := by
  simp [readTimeout, hs, hq]

theorem readTimeout_of_collect (hs : s.rxState = .collect) (hq : s.rxq = []) : readTimeout p s = finishFrame p s := by
  simp [readTimeout, hs, hq]

end

/-! ### The obligations about one event -/

/-- Settles O27. -/
theorem disabledRxStepPasses : Obligations.DisabledRxStepPasses :=
  fun _ h => congrArg Host.Outcome.next (receiverStep_of_disabled Config.params h)

/-- Settles O21, by the two cases of R120. -/
theorem rxByteQueuesOrOverruns : Obligations.RxByteQueuesOrOverruns := by
  refine ⟨decodeEvent_rxByte, fun s b => congrArg Host.Outcome.next ?_⟩
  rcases deliverByte_cases Config.params b s with ⟨hfull, hd⟩ | ⟨hroom, hd⟩ <;> rw [hd]
  · rw [if_pos hfull]
    rfl
  · rw [if_neg hroom, setRxq, List.length_append]
    rfl

/-- Settles O22, by the three cases of R124. -/
theorem rxTimeoutEndsAStarvedReception : Obligations.RxTimeoutEndsAStarvedReception := by
  refine ⟨decodeEvent_rxTimeout, fun s => ⟨?noEffect, ?waitLen, ?collect⟩⟩
  case noEffect => exact fun h => congrArg Host.Outcome.next (if_pos h)
  case waitLen => exact fun hs hq => congrArg Host.Outcome.next (readTimeout_of_waitLen _ hs hq)
  case collect =>
    intro hs hq hcount
    refine congrArg Host.Outcome.next ((readTimeout_of_collect _ hs hq).trans ?_)
    by_cases hlen : s.rspLength = 1
    · rw [if_pos hlen, finishFrame_of_len_lt _ (by simp [hlen])]
      rfl
    · have hlen2 : 2 ≤ s.rspLength.toNat := by bv_omega
      have hcount_ne : s.rxCount ≠ s.rspLength := fun heq => by simp [heq] at hcount
      rw [if_neg hlen, finishFrame_of_count_ne _ hlen2 hcount_ne]
      rfl

/-- Settles O23, by R122's case split on the length byte. -/
theorem rxStepTakesTheLengthByte : Obligations.RxStepTakesTheLengthByte := by
  intro s b q hs hq
  refine congrArg Host.Outcome.next ?_
  split
  · rename_i hb
    rw [receiverStep_of_len_zero _ hs (hb ▸ hq)]
    rfl
  · rename_i hb
    rw [receiverStep_of_len_ne_zero _ hs hq hb]
    rfl

/-- Settles O24. -/
theorem rxStepStoresABodyByte : Obligations.RxStepStoresABodyByte := by
  intro s b q hcanonical hs hq hmore
  obtain ⟨_, hrxbuf, _⟩ := hcanonical
  exact ⟨bodyStored b q s, congrArg Host.Outcome.next (receiverStep_of_more _ hs hq hmore), rfl,
    fun i => Memory.read_write hrxbuf s.rxCount.toNat i b⟩

/-- Settles O25: the body byte is the last one, and the length byte fails Decode's first check. -/
theorem lengthOneFrameIsTooShort : Obligations.LengthOneFrameIsTooShort := by
  intro s b q hcanonical hs hq hcount hlen
  obtain ⟨_, hrxbuf, _⟩ := hcanonical
  have hStep : receiverStep Config.params s =
      raiseDecodeError .frameTooShort (endReception { bodyStored b q s with rxCount := s.rspLength }) := by
    rw [receiverStep_of_last _ hs hq (by simp [hcount, hlen]), finishFrame_of_len_lt _ (by simp [bodyStored, hlen])]
  have hRead : ∀ i, (s.rxbuf.write s.rxCount.toNat b).read i = if i = 0 then b else s.rxbuf.read i := fun i => by
    rw [Memory.read_write hrxbuf, hcount]
    rfl
  exact ⟨_, congrArg Host.Outcome.next hStep, by rw [← hlen]; rfl, hRead⟩

/-- Settles O26: the last byte is the frame's checksum and no part of its type or payload. -/
theorem rxStepEndsTheFrame : Obligations.RxStepEndsTheFrame := by
  intro s b q hcanonical hs hq hlen hcount ended
  obtain ⟨_, hrxbuf, _⟩ := hcanonical
  let n := s.rspLength.toNat - 2
  have hLen : s.rspLength.toNat = n + 2 := by omega
  have hIndex : s.rxCount.toNat = n + 1 := by omega
  have hBody : ended.rxbuf.slice 0 ended.rxCount.toNat = s.rxbuf.read 0 :: (s.rxbuf.slice 1 n ++ [b]) :=
    (congrArg₂ (fun i k => (s.rxbuf.write i b).slice 0 k) hIndex hLen).trans (Memory.slice_write_last hrxbuf n b)
  have hPayload : receivedPayload ended = s.rxbuf.slice 1 n :=
    Memory.slice_write_of_le b (Nat.add_comm 1 n ▸ hIndex.ge)
  have hEnd := finishFrame_of_body Config.params (s := { bodyStored b q s with rxCount := s.rspLength }) hBody
    (by rw [Memory.length_slice]; exact hLen)
  rw [exec, execRxStep, receiverStep_of_last _ hs hq hcount, hEnd, exec_decodeResponse]
  by_cases hv : Config.params.verifyRxChecksum = true ∧ csum (s.rxbuf.read 0) (s.rxbuf.slice 1 n) ≠ b
  · exact (congrArg _ (if_pos hv)).trans (if_pos hv).symm
  · refine (congrArg _ (if_neg hv)).trans (.trans ?_ (if_neg hv).symm)
    exact congrArg (fun pl => Host.Outcome.next (parse (s.rxbuf.read 0) pl
      { ended with rspValid := true, decErr := .none })) hPayload.symm

/-- Settles O46, event by event. -/
theorem receiverEventsLeaveTheHostSide : Obligations.ReceiverEventsLeaveTheHostSide := by
  rintro s t b (h | h | h) <;> cases h
  · exact sameHostSide_deliverByte _ b s
  · exact sameHostSide_readTimeout _ s
  · exact sameHostSide_receiverStep _ s

end Sys2Proof.Machine
end

section
/-! Bytes that arrive do not disturb the byte that is taken (R120, R121): obligation O48. -/

namespace Sys2Proof.Machine

/-! ### RXQ does not reach the end of a reception -/

theorem parse_setRxq (t : Byte) (p : List Byte) (q : List Byte) (s : State) :
    parse t p (setRxq q s) = setRxq q (parse t p s) := by
  have hCommon (k : Kind) : parseCommon k p (setRxq q s) = setRxq q (parseCommon k p s) := by cases p <;> rfl
  have hChip (u : State) : parseChipId p.tail (setRxq q u) = setRxq q (parseChipId p.tail u) := by
    unfold parseChipId
    split <;> rfl
  have hFlash (u : State) : parseFlashId p.tail (setRxq q u) = setRxq q (parseFlashId p.tail u) := by
    unfold parseFlashId
    split <;> rfl
  unfold parse
  cases responseKind t with
  | chipId => exact (congrArg _ (hCommon .chipId)).trans (hChip _)
  | flashId => exact (congrArg _ (hCommon .flashId)).trans (hFlash _)
  | baudAck => exact hCommon .baudAck
  | generic => exact hCommon .generic

theorem finishFrame_setRxq (p : Config.Params) (q : List Byte) (s : State) :
    finishFrame p (setRxq q s) = setRxq q (finishFrame p s) := by
  rw [finishFrame, finishFrame, setRxq_rspLength, setRxq_rxbuf, setRxq_rxCount]
  cases decodeFrame p.verifyRxChecksum s.rspLength (s.rxbuf.slice 0 s.rxCount.toNat) with
  | decoded t pl c k => exact parse_setRxq t pl q { endReception s with
      rspValid := true, decErr := .none, rspType := t, rspChecksum := c, rspCalcChecksum := k }
  | frameTooShort | lengthMismatch | checksumMismatch t c k => rfl

theorem takeLength_setRxq (p : Config.Params) (b : Byte) (q : List Byte) (s : State) :
    takeLength p b (setRxq q s) = setRxq q (takeLength p b s) := by
  rw [takeLength, takeLength, apply_ite (setRxq q), ← finishFrame_setRxq]
  rfl

theorem takeBody_setRxq (p : Config.Params) (b : Byte) (q : List Byte) (s : State) :
    takeBody p b (setRxq q s) = setRxq q (takeBody p b s) := by
  rw [takeBody, takeBody, apply_ite (setRxq q), ← finishFrame_setRxq]
  rfl

/-! ### A byte delivered before or after a turn of RX_STEP -/

/-- An enabled RX_STEP takes the oldest byte, and what follows it in RXQ stays and does not matter (R121). -/
theorem receiverStep_takes_oldest (p : Config.Params) {s : State} {b : Byte} {q : List Byte} (harmed : s.rxState ≠ .idle)
    (hq : s.rxq = b :: q) :
    ∃ t, receiverStep p s = setRxq q t ∧ ∀ q', receiverStep p (setRxq (b :: q') s) = setRxq q' t := by
  cases hs : s.rxState with
  | idle => exact absurd hs harmed
  | waitLen =>
    exact ⟨takeLength p b s, (receiverStep_of_waitLen p hs hq).trans (takeLength_setRxq p b q s),
      fun q' => (receiverStep_of_waitLen p (s := setRxq (b :: q') s) hs rfl).trans (takeLength_setRxq p b q' s)⟩
  | collect =>
    exact ⟨takeBody p b s, (receiverStep_of_collect p hs hq).trans (takeBody_setRxq p b q s),
      fun q' => (receiverStep_of_collect p (s := setRxq (b :: q') s) hs rfl).trans (takeBody_setRxq p b q' s)⟩

/-- Below RXQ_DEPTH a delivered byte is appended (R120). -/
theorem deliverByte_of_room (p : Config.Params) (b : Byte) {s : State} (h : p.rxqDepth ≠ some s.rxq.length) :
    deliverByte p b s = setRxq (s.rxq ++ [b]) s := by
  rcases deliverByte_cases p b s with ⟨hfull, _⟩ | ⟨_, hd⟩
  · exact absurd hfull h
  · exact hd

/-- Settles O48: in either order the oldest byte is taken and the new one is the last. -/
theorem rxByteCommutesWithRxStep : Obligations.RxByteCommutesWithRxStep := by
  intro s b ⟨_, _, hinv⟩ harmed hne hroom
  obtain ⟨oldest, q, hq⟩ := List.exists_cons_of_ne_nil hne
  obtain ⟨t, hStep, hLater⟩ := receiverStep_takes_oldest Config.params harmed hq
  have hroom' : Config.params.rxqDepth ≠ some (setRxq q t).rxq.length := fun hfull => by
    have hle := hinv.rxq_depth _ hfull
    simp [hq] at hle
  refine ⟨setRxq (s.rxq ++ [b]) s, setRxq q t, setRxq (q ++ [b]) t, ?byteFirst, ?thenStep, ?stepFirst, ?thenByte⟩
  case byteFirst => exact congrArg Host.Outcome.next (deliverByte_of_room _ b hroom)
  case thenStep =>
    rw [hq]
    exact congrArg Host.Outcome.next (hLater (q ++ [b]))
  case stepFirst => exact congrArg Host.Outcome.next hStep
  case thenByte => exact congrArg Host.Outcome.next (deliverByte_of_room _ b hroom')

end Sys2Proof.Machine
end

section
/-! A whole reception, step by step (R116, R119, R121-R132): obligations O49, O50. -/

namespace Sys2Proof.Machine

/-! ### A buffer filled from its first entry -/

/-- A byte sequence written into an empty buffer reads back. -/
theorem Memory.read_writeFrom_nil (bs : List Byte) (i : Nat) : (Memory.writeFrom [] 0 bs).read i = bs.getD i 0 := by
  rw [Memory.read_writeFrom i rfl]
  split
  · rfl
  · rename_i hi
    rw [List.getD_eq_default _ _ (by omega)]
    rfl

theorem Memory.slice_writeFrom_nil (bs : List Byte) : (Memory.writeFrom [] 0 bs).slice 0 bs.length = bs := by
  apply List.ext_getElem
  · simp
  · intro i _ hi
    simp [Memory.slice, Memory.read_writeFrom_nil, hi]

theorem Memory.writeFrom_concat (m : Memory) (i : Nat) (bs : List Byte) (b : Byte) :
    m.writeFrom i (bs ++ [b]) = (m.writeFrom i bs).write (i + bs.length) b := by
  induction bs generalizing m i with
  | nil => rfl
  | cons c bs ih =>
    rw [List.cons_append, Memory.writeFrom, ih, Memory.writeFrom, List.length_cons, Nat.add_assoc, Nat.add_comm 1]

/-! ### The collection of a body -/

/-- `s` while it collects a body of `len` bytes: `done` is in RXBUF and `q` is still in RXQ (R123). -/
def collecting (len : Byte) (done q : List Byte) (s : State) : State :=
  { setRxq q s with
    rxState := .collect, rspLength := len, rxCount := BitVec.ofNat 8 done.length, rxbuf := Memory.writeFrom [] 0 done }

theorem collecting_rxCount_toNat (len : Byte) {done : List Byte} (q : List Byte) (s : State) (h : done.length ≤ 255) :
    (collecting len done q s).rxCount.toNat = done.length := Nat.mod_eq_of_lt (by omega)

theorem bodyStored_collecting (len b : Byte) {done : List Byte} (q q' : List Byte) (s : State) (h : done.length ≤ 255) :
    bodyStored b q (collecting len done q' s) = collecting len (done ++ [b]) q s := by
  rw [bodyStored, collecting_rxCount_toNat len q' s h]
  simp [collecting, Memory.writeFrom_concat, BitVec.ofNat_add]

/-- All bytes of the body have been counted. -/
theorem collecting_rxCount {len : Byte} {body : List Byte} (q : List Byte) (s : State) (h : body.length = len.toNat) :
    (collecting len body q s).rxCount = len := by
  simp [collecting, h]

section
variable {s : State} {len : Byte} {rest : List Byte}

theorem receiverStep_collecting_more (p : Config.Params) (b : Byte) {done q : List Byte}
    (h : done.length + 1 < len.toNat) :
    receiverStep p (collecting len done (b :: q) s) = collecting len (done ++ [b]) q s := by
  have hCount : (collecting len done (b :: q) s).rxCount.toNat = done.length :=
    collecting_rxCount_toNat len (b :: q) s (by omega)
  rw [receiverStep_of_more p rfl rfl (hCount.symm ▸ h), bodyStored_collecting len b q (b :: q) s (by omega)]

theorem receiverStep_collecting_last (p : Config.Params) (b : Byte) {done q : List Byte}
    (h : done.length + 1 = len.toNat) :
    receiverStep p (collecting len done (b :: q) s) = finishFrame p (collecting len (done ++ [b]) q s) := by
  have hCount : (collecting len done (b :: q) s).rxCount.toNat = done.length :=
    collecting_rxCount_toNat len (b :: q) s (by omega)
  have hAll : (collecting len (done ++ [b]) q s).rxCount = len := collecting_rxCount q s (by simpa)
  rw [receiverStep_of_last p rfl rfl (hCount.symm ▸ h), bodyStored_collecting len b q (b :: q) s (by omega)]
  exact congrArg (fun n => finishFrame p { collecting len (done ++ [b]) q s with rxCount := n }) hAll.symm

/-- The length byte of an empty RXBUF starts the collection (R122). -/
theorem lengthTaken_eq_collecting (len : Byte) (q : List Byte) (hx : s.rxbuf = []) :
    { lengthTaken len q s with rxState := .collect } = collecting len [] q s := by
  rw [collecting, Memory.writeFrom, ← hx]
  rfl

/-! ### The machine's steps -/

theorem run_succ {t : State} (h : step s = .next t) (k : Nat) : Sys2Proof.core.run (k + 1) s = Sys2Proof.core.run k t := by
  simp only [Host.Core.run, show Sys2Proof.core.step s = .next t from h]

/-- With nothing pending, an enabled RX_STEP runs (R121; log 4). -/
theorem run_succ_of_rxStep {b : Byte} {q : List Byte} (hp : s.pending = []) (harmed : s.rxState ≠ .idle)
    (hq : s.rxq = b :: q) (k : Nat) :
    Sys2Proof.core.run (k + 1) s = Sys2Proof.core.run k (receiverStep Config.params s) :=
  run_succ (step_of_rxStepEnabled hp ((rxStepEnabled_iff s).2 ⟨harmed, by simp [hq]⟩)) k

/-- A running collection takes the rest of its body, one byte a step, and ends (R123). -/
theorem run_collecting (hp : s.pending = []) (todo : List Byte) : ∀ done : List Byte, todo ≠ [] →
    done.length + todo.length = len.toNat →
    Sys2Proof.core.run todo.length (collecting len done (todo ++ rest) s) =
      .next (finishFrame Config.params (collecting len (done ++ todo) rest s)) := by
  induction todo with
  | nil => exact fun _ h => absurd rfl h
  | cons b todo ih =>
    intro done _ hlen
    rw [List.length_cons] at hlen ⊢
    rw [List.cons_append]
    have hRun := run_succ_of_rxStep (s := collecting len done (b :: (todo ++ rest)) s) hp (by simp [collecting]) rfl
      todo.length
    by_cases hlast : todo = []
    · subst hlast
      rw [hRun]
      exact congrArg Host.Outcome.next (receiverStep_collecting_last Config.params b hlen)
    · have hmore : done.length + 1 < len.toNat := by
        have := List.length_pos_of_ne_nil hlast
        omega
      have hStep := receiverStep_collecting_more (s := s) (q := todo ++ rest) Config.params b hmore
      have hlen' : (done ++ [b]).length + todo.length = len.toNat := by simpa [Nat.add_assoc, Nat.add_comm 1] using hlen
      rw [hRun, hStep, ih (done ++ [b]) hlast hlen', List.append_assoc, List.singleton_append]

/-- An armed receiver takes the length byte and the body that it declares, and ends (R122, R123). -/
theorem run_armed {body : List Byte} (hp : s.pending = []) (hs : s.rxState = .waitLen) (hx : s.rxbuf = [])
    (hq : s.rxq = len :: (body ++ rest)) (hlen : body.length = len.toNat) :
    Sys2Proof.core.run (len.toNat + 1) s = .next (finishFrame Config.params (collecting len body rest s)) := by
  rw [run_succ_of_rxStep hp (by simp [hs]) hq]
  by_cases hzero : len = 0
  · subst hzero
    obtain rfl := List.eq_nil_of_length_eq_zero hlen
    rw [receiverStep_of_len_zero _ hs hq, ← lengthTaken_eq_collecting 0 rest hx]
    exact congrArg Host.Outcome.next
      (finishFrame_of_len_lt _ (s := { lengthTaken 0 rest s with rxState := .collect }) Nat.two_pos).symm
  · have hbody : body ≠ [] := fun h => hzero (BitVec.eq_of_toNat_eq (by simpa [h] using hlen.symm))
    have hRun := run_collecting (rest := rest) hp body [] hbody ((Nat.zero_add _).trans hlen)
    rw [receiverStep_of_len_ne_zero _ hs hq hzero, lengthTaken_eq_collecting len _ hx, ← hlen, hRun, List.nil_append]

end

/-! ### What the end of a reception leaves -/

/-- A parse rule writes registers of the response only (R152). -/
theorem parse_frame (t : Byte) (p : List Byte) (s : State) :
    let u := parse t p s
    u = { s with
      rspKind := u.rspKind, statusValid := u.statusValid, rspStatus := u.rspStatus, rspDataLen := u.rspDataLen
      rspData := u.rspData, chipId := u.chipId, chipIdValid := u.chipIdValid, flashId := u.flashId
      flashIdValid := u.flashIdValid } := by
  rcases parse_cases t p s with h | ⟨v, _, h⟩ | ⟨v, _, h⟩ <;> rw [h, parseCommon_eq]

/-- However a reception ends, the receiver is IDLE and its queue, length byte and count stay (R125-R127). -/
theorem finishFrame_ended (p : Config.Params) (s : State) :
    let v := finishFrame p s
    v.rxState = .idle ∧ v.rspDone = true ∧ v.rxq = s.rxq ∧ v.rspLength = s.rspLength ∧ v.rxCount = s.rxCount := by
  rcases finishFrame_cases p s with ⟨t, pl, c, k, _, h⟩ | h | h | ⟨t, c, k, _, h⟩ <;> rw [h]
  · rw [frameOk, parse_frame]
    exact ⟨rfl, rfl, rfl, rfl, rfl⟩
  all_goals exact ⟨rfl, rfl, rfl, rfl, rfl⟩

/-- A body of the declared length fails no length check (R117). -/
theorem decodeFrame_ne_lengthMismatch {verify : Bool} {len : Byte} {raw : List Byte} (h : raw.length = len.toNat) :
    decodeFrame verify len raw ≠ .lengthMismatch := by
  unfold decodeFrame
  split
  · simp
  · rw [if_neg (not_not.2 h)]
    simp only
    split <;> simp

/-- What a response leaves where every response register was clear (R126, R132, R152, R154). -/
theorem frameOk_of_cleared (t : Byte) {pl : List Byte} (c k : Byte) {s : State} (h : ResponseCleared s)
    (hpl : pl.length ≤ Config.maxPayload) :
    let v := frameOk t pl c k s
    v.rspValid = true ∧ v.decErr = .none ∧ v.rspType = t ∧ v.rspChecksum = c ∧ v.rspCalcChecksum = k ∧
      v.rspKind = responseKind t ∧ v.statusValid = !pl.isEmpty ∧ v.rspStatus = pl.headD 0 ∧
      v.rspDataLen.toNat = pl.length - 1 ∧ ∀ i, Memory.read v.rspData i = pl.tail.getD i 0 := by
  have hDataLen : (BitVec.ofNat 8 (pl.length - 1)).toNat = pl.length - 1 :=
    Nat.mod_eq_of_lt (by simp only [Config.maxPayload] at hpl; omega)
  obtain ⟨chip, chipValid, flash, flashValid, heq, _⟩ := parse_eq_of_cleared t pl (s := { s with
    rspValid := true, decErr := .none, rspType := t, rspChecksum := c, rspCalcChecksum := k }) h
  rw [frameOk, heq]
  exact ⟨rfl, rfl, rfl, rfl, rfl, rfl, rfl, rfl, hDataLen, Memory.read_writeFrom_nil pl.tail⟩

/-- Settles O49: the machine's steps collect the body, and its end is Decode's (R125). -/
theorem receptionEndsAsDecodeSays : Obligations.ReceptionEndsAsDecodeSays := by
  intro s len body rest hidle hp hq hlen
  let u : State := { clearResponse s with rxState := .waitLen, hostErr := .none }
  let c := collecting len body rest u
  have hRecv : exec .recv s = .next u := if_neg (not_not.2 hidle)
  have hRun := run_armed (s := u) hp rfl rfl hq hlen
  have hHost : SameHostSide u (finishFrame Config.params c) := sameHostSide_finishFrame Config.params c
  obtain ⟨hIdle, hDone, hRxq, hLength, hCount⟩ := finishFrame_ended Config.params c
  have hAll : c.rxCount = len := collecting_rxCount rest u hlen
  obtain ⟨_, hKept, _⟩ := finishFrame_buffers Config.params c
  have hRxbuf (i : Nat) : (finishFrame Config.params c).rxbuf.read i = body.getD i 0 :=
    hKept ▸ Memory.read_writeFrom_nil body i
  refine ⟨u, finishFrame Config.params c, hRecv, hRun, hHost, hIdle, hDone, hRxq, hLength, hCount.trans hAll, hRxbuf,
    ?_⟩
  have hBody : c.rxbuf.slice 0 c.rxCount.toNat = body := by
    rw [hAll, ← hlen]
    exact Memory.slice_writeFrom_nil body
  have hCleared : ResponseCleared c := ⟨rfl, rfl, rfl, rfl, rfl, rfl, rfl, rfl, rfl⟩
  have hLen : c.rspLength = len := rfl
  rw [finishFrame, hBody, hLen]
  cases hd : decodeFrame Config.params.verifyRxChecksum len body with
  | decoded t pl ck k =>
    exact frameOk_of_cleared t ck k (s := endReception c) hCleared (length_le_of_decodeFrame_decoded hd)
  | frameTooShort => exact ⟨rfl, rfl, hCleared⟩
  | checksumMismatch t ck k => exact ⟨rfl, rfl, rfl, rfl, rfl, hCleared⟩
  | lengthMismatch => exact decodeFrame_ne_lengthMismatch hlen hd

/-- Settles O50: the frame is decoded to what was encoded (R119), and the reception ends as Decode says (O49). -/
theorem encodedFrameIsReceivedBack : Obligations.EncodedFrameIsReceivedBack := by
  intro s ty p rest hp hidle hpending hq
  have hLen : (BitVec.ofNat 8 (p.length + 2)).toNat = p.length + 2 := Nat.mod_eq_of_lt (by omega)
  obtain ⟨u, v, hRecv, hRun, _, hIdle, hDone, hRxq, _, _, _, hResponse⟩ :=
    receptionEndsAsDecodeSays s (BitVec.ofNat 8 (p.length + 2)) (ty :: (p ++ [csum ty p])) rest hidle hpending hq
      (by simpa using hLen.symm)
  rw [hLen] at hRun
  rw [decodeFrame_encodeFrame _ ty hp] at hResponse
  obtain ⟨hValid, hErr, hResult⟩ := hResponse
  exact ⟨u, v, hRecv, hRun, hRxq, hIdle, hDone, hValid, hErr, hResult⟩

end Sys2Proof.Machine
end

section
/-! The response parser on the frame body in RXBUF (R150-R160): obligations O28-O31. -/

namespace Sys2Proof.Machine

/-! ### Slices, entry by entry -/

/-- The first entry of a slice, where there is one. -/
theorem Memory.headD_slice (m : Memory) (i n : Nat) (d : Byte) :
    (m.slice i n).headD d = if 0 < n then m.read i else d := by
  cases n with
  | zero => rfl
  | succ n => rw [Memory.slice_succ, List.headD_cons, if_pos n.succ_pos]

theorem Memory.tail_slice (m : Memory) (i n : Nat) : (m.slice i n).tail = m.slice (i + 1) (n - 1) := by
  rw [← List.drop_one, Memory.drop_slice]

/-! ### The payload in RXBUF -/

/-- There is a status byte when the body has more than the type and the checksum (R154). -/
theorem receivedPayload_nonempty (s : State) : (!(receivedPayload s).isEmpty) = decide (3 ≤ s.rspLength.toNat) := by
  rw [Bool.eq_iff_iff, Bool.not_eq_true', List.isEmpty_eq_false_iff, ← List.length_pos_iff, length_receivedPayload,
    decide_eq_true_iff]
  omega

/-- The status byte stands after the type byte (R154). -/
theorem receivedPayload_headD (s : State) (d : Byte) :
    (receivedPayload s).headD d = if 3 ≤ s.rspLength.toNat then s.rxbuf.read 1 else d := by
  rw [receivedPayload, Memory.headD_slice]
  exact if_congr (by omega) rfl rfl

/-- The data bytes stand after the status byte (R154). -/
theorem receivedPayload_tail (s : State) : (receivedPayload s).tail = s.rxbuf.slice 2 (s.rspLength.toNat - 3) :=
  Memory.tail_slice s.rxbuf 1 (s.rspLength.toNat - 2)

/-! ### What a parse rule writes -/

/-- The common part writes the common fields only, from the frame body in RXBUF (R152, R154). -/
theorem parsedAs_parseCommon (k : Kind) {s : State} (h : s.rspData.wf = true) :
    ParsedAs k (s.chipId, s.chipIdValid) (s.flashId, s.flashIdValid) s (parseCommon k (receivedPayload s) s) := by
  have hNumber : s.rspLength.toNat - 2 - 1 = s.rspLength.toNat - 3 := by omega
  rw [parseCommon_eq, receivedPayload_nonempty, receivedPayload_headD, receivedPayload_tail, length_receivedPayload,
    hNumber]
  refine ⟨rfl, fun i => ?_⟩
  rw [Memory.read_writeFrom i h, Memory.length_slice, Nat.sub_zero]
  by_cases hi : i < s.rspLength.toNat - 3
  · rw [if_pos (by omega), if_pos hi, Memory.getD_slice _ hi]
  · rw [if_neg (by omega), if_neg hi]

/-- A rule that also writes CHIP_ID (R156). -/
theorem ParsedAs.withChipId {k : Kind} {chip : Word × Bool} {flash : BitVec 16 × Bool} {s t : State}
    (h : ParsedAs k chip flash s t) (v : Word) :
    ParsedAs k (v, true) flash s { t with chipId := v, chipIdValid := true } := by
  obtain ⟨hFields, hData⟩ := h
  exact ⟨by rw [hFields], hData⟩

/-- A rule that also writes FLASH_ID (R157). -/
theorem ParsedAs.withFlashId {k : Kind} {chip : Word × Bool} {flash : BitVec 16 × Bool} {s t : State}
    (h : ParsedAs k chip flash s t) (v : BitVec 16) :
    ParsedAs k chip (v, true) s { t with flashId := v, flashIdValid := true } := by
  obtain ⟨hFields, hData⟩ := h
  exact ⟨by rw [hFields], hData⟩

/-! ### The two identifiers -/

/-- Concatenation puts the left part above the right one. -/
theorem toNat_append_byte {w : Nat} (x : BitVec w) (b : Byte) : (x ++ b).toNat = x.toNat * 256 + b.toNat := by
  rw [BitVec.toNat_append, ← Nat.shiftLeft_add_eq_or_of_lt b.isLt, Nat.shiftLeft_eq]

/-- The value of four bytes, the most significant first (R11, R156). -/
theorem be32val_eq_ofNat (b0 b1 b2 b3 : Byte) :
    be32val b0 b1 b2 b3 =
      BitVec.ofNat 32 (b0.toNat * 2 ^ 24 + b1.toNat * 2 ^ 16 + b2.toNat * 2 ^ 8 + b3.toNat) := by
  apply BitVec.eq_of_toNat_eq
  rw [be32val, toNat_append_byte, toNat_append_byte, toNat_append_byte, BitVec.toNat_ofNat]
  omega

/-- The value of a manufacturer and a device byte (R157). -/
theorem byte_append_byte_eq_ofNat (manufacturer device : Byte) :
    manufacturer ++ device = BitVec.ofNat 16 (manufacturer.toNat * 256 + device.toNat) := by
  apply BitVec.eq_of_toNat_eq
  rw [toNat_append_byte, BitVec.toNat_ofNat]
  omega

/-- The chip-ID rule on data bytes that stand in a buffer (R156). -/
theorem parseChipId_slice (m : Memory) (i : Nat) (s : State) :
    parseChipId (m.slice i 4) s =
      { s with
        chipId := be32val (m.read i) (m.read (i + 1)) (m.read (i + 2)) (m.read (i + 3)), chipIdValid := true } := rfl

/-- The flash-ID rule on data bytes that stand in a buffer (R157). -/
theorem parseFlashId_slice (m : Memory) (i : Nat) (s : State) :
    parseFlashId (m.slice i 2) s = { s with flashId := m.read i ++ m.read (i + 1), flashIdValid := true } := rfl

/-- Any other number of data bytes than 4 leaves the chip ID (R156, R160). -/
theorem parseChipId_of_length_ne {data : List Byte} (h : data.length ≠ 4) (s : State) : parseChipId data s = s := by
  obtain ⟨_, hlen, _⟩ | ⟨_, heq⟩ := parseChipId_cases data s
  · exact absurd hlen h
  · exact heq

/-- Any other number of data bytes than 2 leaves the flash ID (R157, R160). -/
theorem parseFlashId_of_length_ne {data : List Byte} (h : data.length ≠ 2) (s : State) : parseFlashId data s = s := by
  obtain ⟨_, hlen, _⟩ | ⟨_, heq⟩ := parseFlashId_cases data s
  · exact absurd hlen h
  · exact heq

/-! ### The parse rules -/

/-- Settles O29: the rule finds four data bytes exactly when LEN = 7 (R156, R160). -/
theorem chipIdResponseIsParsed : Obligations.ChipIdResponseIsParsed := by
  intro s ⟨_, _, hwf⟩
  refine ⟨parseChipIdResponse (receivedPayload s) s, rfl, ?_⟩
  have hCommon := parsedAs_parseCommon .chipId hwf
  rw [parseChipIdResponse, receivedPayload_tail]
  by_cases hlen : s.rspLength = 7
  · have hData : s.rspLength.toNat - 3 = 4 := by rw [hlen]; rfl
    rw [if_pos hlen, hData, parseChipId_slice, be32val_eq_ofNat]
    exact hCommon.withChipId _
  · have hData : s.rspLength.toNat - 3 ≠ 4 := by bv_omega
    rw [if_neg hlen, parseChipId_of_length_ne (by rwa [Memory.length_slice])]
    exact hCommon

/-- Settles O30: the rule finds two data bytes exactly when LEN = 5 (R157, R160). -/
theorem flashIdResponseIsParsed : Obligations.FlashIdResponseIsParsed := by
  intro s ⟨_, _, hwf⟩
  refine ⟨parseFlashIdResponse (receivedPayload s) s, rfl, ?_⟩
  have hCommon := parsedAs_parseCommon .flashId hwf
  rw [parseFlashIdResponse, receivedPayload_tail]
  by_cases hlen : s.rspLength = 5
  · have hData : s.rspLength.toNat - 3 = 2 := by rw [hlen]; rfl
    rw [if_pos hlen, hData, parseFlashId_slice, byte_append_byte_eq_ofNat]
    exact hCommon.withFlashId _
  · have hData : s.rspLength.toNat - 3 ≠ 2 := by bv_omega
    rw [if_neg hlen, parseFlashId_of_length_ne (by rwa [Memory.length_slice])]
    exact hCommon

/-- Settles O31: both rules are the common part alone (R158, R159). -/
theorem statusOnlyResponsesAreParsed : Obligations.StatusOnlyResponsesAreParsed :=
  fun _ _ ⟨_, _, hwf⟩ =>
    ⟨⟨_, rfl, parsedAs_parseCommon .baudAck hwf⟩, ⟨_, rfl, parsedAs_parseCommon .generic hwf⟩⟩

/-! ### The registry -/

/-- A type byte that is no key of the registry falls to the generic rule (R151). -/
theorem responseKind_of_not_mem {t : Byte} (h : t ∉ registry.map Prod.fst) : responseKind t = .generic :=
  not_not.1 fun hKind => h (List.mem_map_of_mem (mem_registry_of_responseKind hKind))

/-- Settles O28: the three keys by the table, every other type byte by the fallback. -/
theorem registrySelectsTheParseRule : Obligations.RegistrySelectsTheParseRule := by
  refine ⟨rfl, rfl, rfl, fun t hFlash hBaud hChip => ?_, by decide⟩
  have hKeys : t ∉ registry.map Prod.fst := by simpa [registry] using ⟨hFlash, hBaud, hChip⟩
  exact decodeResponse_of_generic (responseKind_of_not_mem hKeys)

end Sys2Proof.Machine
end

section
/-! The command serializer (R113, R170-R182): a frame emitted in closed form, the baud divisor as the nearest integer, and
the eight builders: obligations O6-O10. -/

namespace Sys2Proof.Machine

/-! ### What a builder emits -/

/-- Emit with the length byte, the frame's length and the checksum in the closed forms of R80 and R111. -/
theorem emit_eq_of_fields (t : Byte) {p : List Byte} (s : State) {len c : Byte} {total : BitVec 9} (hp : p.length ≤ 253)
    (hlen : BitVec.ofNat 8 (p.length + 2) = len) (htotal : BitVec.ofNat 9 (p.length + 3) = total)
    (hc : t ^^^ len ^^^ xorBytes p = c) :
    emit t p s = { s with txs := s.txs ++ ([len, t] ++ p ++ [c]), txLastLen := total, txLastCsum := c, hostErr := .none } := by
  have hCsum : csum t p = c := by rw [csum_eq t hp, hlen, hc]
  rw [emit_eq, encodeFrame, hlen, htotal, hCsum]

@[simp] theorem length_le32 (v : Word) : (le32 v).length = 4 := rfl

theorem xorBytes_le16 (v : BitVec 16) : xorBytes (le16 v) = v.extractLsb' 0 8 ^^^ v.extractLsb' 8 8 := by
  simp [le16]

theorem xorBytes_le32 (v : Word) : xorBytes (le32 v) =
    v.extractLsb' 0 8 ^^^ v.extractLsb' 8 8 ^^^ v.extractLsb' 16 8 ^^^ v.extractLsb' 24 8 := by
  simp [le32, BitVec.xor_assoc]

/-! ### Builders that always emit -/

/-- Settles O6: the frame of an empty payload is LEN = 2, the type, and the type xor 2. -/
theorem fixedCommandsEmitTheirFrames : Obligations.FixedCommandsEmitTheirFrames := by
  refine ⟨decode_encode_toInstr .flashErase, decode_encode_toInstr .flashId, decode_encode_toInstr .chipId, fun s => ?_⟩
  have hEmit (t c : Byte) (hc : t ^^^ 2 = c) : emit t [] s =
      { s with txs := s.txs ++ [2, t, c], txLastLen := 3, txLastCsum := c, hostErr := .none } :=
    emit_eq_of_fields t s (Nat.zero_le _) rfl rfl (by simpa using hc)
  exact ⟨congrArg Host.Outcome.next (hEmit 0x07 0x05 rfl), congrArg Host.Outcome.next (hEmit 0x25 0x27 rfl),
    congrArg Host.Outcome.next (hEmit 0x32 0x30 rfl)⟩

/-- FLASH_READ and RAM_READ have one payload, so one frame but for the type and what it adds to the checksum (R175). -/
theorem emit_readPayload (t : Byte) {c : Byte} (s : State)
    (hc : t ^^^ 8 ^^^ (xorBytes (le32 s.argAddr) ^^^ xorBytes (le16 s.argLen)) = c) :
    emit t (readPayload s) s = { s with
      txs := s.txs ++ ([8, t] ++ readPayload s ++ [c]), txLastLen := 9, txLastCsum := c, hostErr := .none } :=
  emit_eq_of_fields t s (by simp [readPayload, le16]) rfl rfl (by rw [readPayload, xorBytes_append, hc])

/-- Settles O8; the constants 0x03 and 0x17 are the types xor LEN = 8. -/
theorem readCommandsEmitAddressThenLength : Obligations.ReadCommandsEmitAddressThenLength := by
  refine ⟨decode_encode_toInstr .flashRead, decode_encode_toInstr .ramRead, ?_⟩
  intro s a m fields x
  have hXor : xorBytes (le32 a) ^^^ xorBytes (le16 m) = x := by
    rw [xorBytes_le32, xorBytes_le16, ← BitVec.xor_assoc]
  exact ⟨congrArg Host.Outcome.next (emit_readPayload 0x0B s (congrArg (0x03 ^^^ ·) hXor)),
    congrArg Host.Outcome.next (emit_readPayload 0x1F s (congrArg (0x17 ^^^ ·) hXor))⟩

/-- Settles O9; the constant 0x2B is the type xor LEN = 7. -/
theorem selectFlashTypeEmitsTypeThenJump : Obligations.SelectFlashTypeEmitsTypeThenJump := by
  refine ⟨decode_encode_toInstr .selectFlashType, ?_⟩
  intro s j c
  have hCsum : 0x2C ^^^ 7 ^^^ xorBytes (selectFlashTypePayload s) = c := by
    rw [selectFlashTypePayload, xorBytes_cons, xorBytes_le32]
    simp [c, j, BitVec.xor_assoc]
  exact congrArg Host.Outcome.next (emit_eq_of_fields 0x2C s (by simp [selectFlashTypePayload]) rfl rfl hCsum)

/-! ### FLASH_WRITE -/

/-- Settles O7, by R173's limit on PBUF_LEN, under which neither the length byte nor TX_LAST_LEN wraps. -/
theorem flashWriteEmitsAddressThenData : Obligations.FlashWriteEmitsAddressThenData := by
  refine ⟨decode_encode_toInstr .flashWrite, ?emits, fun s hlen => if_pos hlen⟩
  case emits =>
    intro s hlen a data c
    have hData : flashWritePayload s = le32 a ++ data := by rw [flashWritePayload, pbufBytes_eq_map]
    have hLength : (le32 a ++ data).length = s.pbufLen.toNat + 4 := by simp [data, Nat.add_comm]
    have hLen : BitVec.ofNat 8 ((le32 a ++ data).length + 2) = s.pbufLen + 6 := by
      rw [hLength]
      bv_omega
    have hTxLen : BitVec.ofNat 9 ((le32 a ++ data).length + 3) = s.pbufLen.setWidth 9 + 7 := by
      rw [hLength]
      bv_omega
    have hCsum : 0x09 ^^^ (s.pbufLen + 6) ^^^ xorBytes (le32 a ++ data) = c := by
      rw [xorBytes_append, xorBytes_le32, xorBytes_eq_foldr data]
      simp only [c, BitVec.xor_assoc]
    have hExec : exec .flashWrite s = .next (emit 0x09 (flashWritePayload s) s) := if_neg (Nat.not_lt.2 hlen)
    rw [hExec, hData, emit_eq_of_fields 0x09 s (by omega) hLen hTxLen hCsum]
    rfl

/-! ### The baud divisor -/

/-- `d` is the integer nearest to 1,000,000 / `b`, the even one of two equally near (R178). -/
structure NearestDivisor (b d : Nat) : Prop where
  not_above : 2 * (b * d) ≤ 2000000 + b
  not_below : 2000000 ≤ 2 * (b * d) + b
  tie_even : 2 * (b * d) = 2000000 + b ∨ 2000000 = 2 * (b * d) + b → d % 2 = 0

/-- R178's rounding of quotient and remainder gives the nearest integer. -/
theorem nearestDivisor_baudDiv {b : Nat} (hb : 0 < b) : NearestDivisor b (baudDiv b) := by
  have hDivision : b * (1000000 / b) + 1000000 % b = 1000000 := Nat.div_add_mod 1000000 b
  have hRemainder : 1000000 % b < b := Nat.mod_lt _ hb
  rw [baudDiv, Config.baudNumerator]
  generalize 1000000 / b = q at *
  generalize 1000000 % b = r at *
  have hNext : b * (q + 1) = b * q + b := Nat.mul_succ b q
  split
  next hUp => constructor <;> omega
  next =>
    split
    next hDown => constructor <;> omega
    next =>
      rcases Nat.mod_two_eq_zero_or_one q with hEven | hOdd
      · rw [hEven, Nat.add_zero]
        constructor <;> omega
      · rw [hOdd]
        constructor <;> omega

/-- The rates whose divisor fits a byte and is not 0 (R179). -/
theorem NearestDivisor.in_range_iff {b d : Nat} (h : NearestDivisor b d) : (1 ≤ d ∧ d ≤ 255) ↔ 3914 ≤ b ∧ b ≤ 1999999 := by
  obtain ⟨hAbove, hBelow, hTie⟩ := h
  constructor
  · rintro ⟨hOne, hByte⟩
    have hLeast : b * 1 ≤ b * d := Nat.mul_le_mul_left b hOne
    have hMost : b * d ≤ b * 255 := Nat.mul_le_mul_left b hByte
    refine ⟨by omega, Nat.le_of_lt_succ (Nat.lt_of_not_le fun hBig => ?_)⟩
    -- Only 2,000,000 is left, half way between the divisors 0 and 1.
    obtain rfl : b = 2000000 := by omega
    omega
  · rintro ⟨hSlow, hFast⟩
    constructor
    · refine Nat.pos_of_ne_zero fun hZero => ?_
      rw [hZero] at hBelow
      omega
    · refine Nat.le_of_lt_succ (Nat.lt_of_not_le fun hBig => ?_)
      have hMany : b * 256 ≤ b * d := Nat.mul_le_mul_left b hBig
      omega

theorem baudDivisor_of_accepted {b : Word} (hslow : 3914 ≤ b.toNat) (hfast : b.toNat ≤ 1999999) :
    baudDivisor b = some (BitVec.ofNat 8 (baudDiv b.toNat)) := by
  have hNearest : NearestDivisor b.toNat (baudDiv b.toNat) := nearestDivisor_baudDiv (by omega)
  obtain ⟨hOne, hByte⟩ := hNearest.in_range_iff.2 ⟨hslow, hfast⟩
  rw [baudDivisor, if_neg (by bv_omega)]
  exact if_neg (by omega)

theorem baudDivisor_of_refused {b : Word} (h : b.toNat < 3914 ∨ 1999999 < b.toNat) : baudDivisor b = none := by
  rw [baudDivisor]
  split
  next => rfl
  next hZero =>
    have hNearest : NearestDivisor b.toNat (baudDiv b.toNat) := nearestDivisor_baudDiv (by bv_omega)
    have hRange := hNearest.in_range_iff
    exact if_pos (by omega)

/-! ### CHANGE_BAUD -/

/-- CHANGE_BAUD of a rate that has a divisor (R180). -/
theorem exec_changeBaud_of_some {s : State} {d : Byte} (h : baudDivisor s.argBaud = some d) :
    exec .changeBaud s = .next { s with
      txs := s.txs ++ [3, 0x27, d, 0x27 ^^^ 3 ^^^ d], txLastLen := 4, txLastCsum := 0x27 ^^^ 3 ^^^ d, hostErr := .none } := by
  have hEmit : exec .changeBaud s = .next (emit 0x27 [d] s) := by simp only [exec, execChangeBaud, h]
  have hXor : xorBytes [d] = d := by simp
  rw [hEmit, emit_eq_of_fields 0x27 s (by simp) rfl rfl (congrArg _ hXor)]
  rfl

/-- CHANGE_BAUD of a rate that has none (R180, R224). -/
theorem exec_changeBaud_of_none {s : State} (h : baudDivisor s.argBaud = none) :
    exec .changeBaud s = .next { s with hostErr := .baudOutOfRange } := by
  simp only [exec, execChangeBaud, h, raiseHostError]

/-- Settles O10, by the nearest divisor and the rates at which it lies in 1..255. -/
theorem changeBaudEmitsNearestDivisor : Obligations.ChangeBaudEmitsNearestDivisor := by
  refine ⟨decode_encode_toInstr .changeBaud, ?emits, fun s hbaud => exec_changeBaud_of_none (baudDivisor_of_refused hbaud)⟩
  case emits =>
    intro s hslow hfast
    have hNearest : NearestDivisor s.argBaud.toNat (baudDiv s.argBaud.toNat) := nearestDivisor_baudDiv (by omega)
    obtain ⟨hOne, hByte⟩ := hNearest.in_range_iff.2 ⟨hslow, hfast⟩
    exact ⟨baudDiv s.argBaud.toNat, hOne, hByte, hNearest.not_above, hNearest.not_below, hNearest.tie_even,
      exec_changeBaud_of_some (baudDivisor_of_accepted hslow hfast)⟩

end Sys2Proof.Machine
end

section
/-! The host's register writes (R201, R202, R205): obligations O16-O18. -/

namespace Sys2Proof.Machine

/-! ### A write that stores -/

theorem storeReg_cmd (v : Word) (s : State) : storeReg 0 v s = none := rfl

theorem storeReg_pbuf (v : Word) (s : State) {i : Nat} (hi : i < 253) :
    storeReg (BitVec.ofNat 10 (0x100 + i)) v s = some { s with pbuf := s.pbuf.write i (v.extractLsb' 0 8) } := by
  have hn : (BitVec.ofNat 10 (0x100 + i)).toNat = 0x100 + i := Nat.mod_eq_of_lt (by omega)
  rw [storeReg, hn, if_neg (by omega), if_pos (by omega), Nat.add_sub_cancel_left]
  rfl

/-- A number that stores is not CMD's, so the bus write is the store and nothing else (R201). -/
theorem exec_regWrite_of_stores {n : RegNum} {v : Word} {s t : State} (h : storeReg n v s = some t) :
    exec (.regWrite n v) s = .next t := by
  have hn : n ≠ 0#10 := by
    rintro rfl
    cases (storeReg_cmd v s).symm.trans h
  simp only [exec, execRegWrite, if_neg hn, h]

/-- Settles O16, register by register; PBUF through its canonical form. -/
theorem regWriteStoresTheLowBits : Obligations.RegWriteStoresTheLowBits := by
  intro s v ⟨hpbuf, _, _⟩
  refine ⟨exec_regWrite_of_stores rfl, exec_regWrite_of_stores rfl, exec_regWrite_of_stores rfl,
    exec_regWrite_of_stores rfl, exec_regWrite_of_stores rfl, exec_regWrite_of_stores rfl, fun i hi => ?pbuf⟩
  case pbuf =>
    exact ⟨_, exec_regWrite_of_stores (storeReg_pbuf v s hi), rfl,
      fun j => Memory.read_write hpbuf i j (v.extractLsb' 0 8)⟩

/-! ### A write that is refused -/

/-- STATUS, the read-only registers and buffers, and the undefined numbers store nothing (R202). -/
theorem storeReg_readOnly (v : Word) (s : State) {n : RegNum}
    (h : n.toNat = 0x001 ∨ (0x008 ≤ n.toNat ∧ n.toNat ≤ 0x0FF) ∨ 0x1FD ≤ n.toNat) : storeReg n v s = none := by
  rcases h with hStatus | hElsewhere
  · rw [storeReg, hStatus]
    rfl
  · rw [storeReg, if_neg (by omega), if_neg (by omega)]

theorem exec_regWrite_of_refused {n : RegNum} {v : Word} {s : State} (hn : n ≠ 0#10) (h : storeReg n v s = none) :
    exec (.regWrite n v) s = .next { s with hostErr := .badReg } := by
  simp only [exec, execRegWrite, if_neg hn, h, raiseHostError]

/-- Settles O17: none of these numbers is CMD's, and none stores. -/
theorem regWriteElsewhereIsBadReg : Obligations.RegWriteElsewhereIsBadReg := by
  intro s n v h
  have hn : n ≠ 0#10 := by
    rintro rfl
    simp at h
  exact exec_regWrite_of_refused hn (storeReg_readOnly v s h)

/-! ### A write to CMD -/

/-- `RunCommand` dispatches an operation to its row of the opcode table (R95, R205). -/
theorem runDecoded_eq_exec (c : Command) (s : State) : runDecoded c s = exec c.toInstr s := by cases c <;> rfl

theorem exec_regWrite_cmd (v : Word) (s : State) : exec (.regWrite 0 v) s = runCommand v s := rfl

/-- Writing the encoder's word of an operation to CMD runs the operation (R205). -/
theorem exec_cmdWrite (c : Command) (s : State) : exec (.regWrite 0 (encodeCommand c)) s = exec c.toInstr s := by
  rw [exec_regWrite_cmd, runCommand, decodeCommand_encodeCommand]
  exact runDecoded_eq_exec c s

/-- The word of ENCODE_RAW: OP 1 above the type byte (R90, R91). -/
theorem encodeCommand_encodeRaw (t : Byte) : encodeCommand (.encodeRaw t) = 0x00000100 ||| t.setWidth 32 :=
  BitVec.append_def 0x000001#24 t

/-- Settles O18, by the word the encoder writes for each operation. -/
theorem cmdWriteRunsItsCommand : Obligations.CmdWriteRunsItsCommand := by
  intro s t
  refine ⟨exec_cmdWrite .flashErase s, exec_cmdWrite .flashWrite s, exec_cmdWrite .flashRead s, exec_cmdWrite .ramRead s,
    exec_cmdWrite .flashId s, exec_cmdWrite .changeBaud s, exec_cmdWrite .selectFlashType s, exec_cmdWrite .chipId s,
    ?encodeRaw, exec_cmdWrite .recv s, exec_cmdWrite .clear s⟩
  case encodeRaw => exact encodeCommand_encodeRaw t ▸ exec_cmdWrite (.encodeRaw t) s

end Sys2Proof.Machine
end

section
/-! The host's operands do not reach a reception (R201): every function of the receiver commutes with replacing them:
obligation O47. -/

namespace Sys2Proof.Machine

/-- The argument registers, PBUF_LEN and PBUF, which the host may write during a reception (R201). -/
structure Operands where
  addr : Word
  len : BitVec 16
  baud : Word
  ftype : Byte
  jump : Word
  pbufLen : Byte
  pbuf : Memory

/-- `s` with the operands `o`. -/
def State.withOperands (s : State) (o : Operands) : State :=
  { s with argAddr := o.addr, argLen := o.len, argBaud := o.baud, argFtype := o.ftype, argJump := o.jump,
           pbufLen := o.pbufLen, pbuf := o.pbuf }

section
variable (o : Operands) (p : Config.Params) (s : State)

@[simp] theorem withOperands_rspLength : (s.withOperands o).rspLength = s.rspLength := rfl
@[simp] theorem withOperands_rxbuf : (s.withOperands o).rxbuf = s.rxbuf := rfl
@[simp] theorem withOperands_rxCount : (s.withOperands o).rxCount = s.rxCount := rfl

/-! ### The response parser -/

theorem parseCommon_withOperands (k : Kind) (pl : List Byte) :
    parseCommon k pl (s.withOperands o) = (parseCommon k pl s).withOperands o := by
  simp only [parseCommon_eq]
  rfl

theorem parseChipId_withOperands (data : List Byte) :
    parseChipId data (s.withOperands o) = (parseChipId data s).withOperands o := by
  unfold parseChipId
  split <;> rfl

theorem parseFlashId_withOperands (data : List Byte) :
    parseFlashId data (s.withOperands o) = (parseFlashId data s).withOperands o := by
  unfold parseFlashId
  split <;> rfl

theorem parse_withOperands (t : Byte) (pl : List Byte) :
    parse t pl (s.withOperands o) = (parse t pl s).withOperands o := by
  unfold parse
  cases responseKind t with
  | chipId =>
    exact (congrArg _ (parseCommon_withOperands o s .chipId pl)).trans (parseChipId_withOperands o _ pl.tail)
  | flashId =>
    exact (congrArg _ (parseCommon_withOperands o s .flashId pl)).trans (parseFlashId_withOperands o _ pl.tail)
  | baudAck => exact parseCommon_withOperands o s .baudAck pl
  | generic => exact parseCommon_withOperands o s .generic pl

/-! ### The receiver -/

/-- Decode reads RSP_LENGTH, RX_COUNT and RXBUF, which are no operands (R125). -/
theorem finishFrame_withOperands : finishFrame p (s.withOperands o) = (finishFrame p s).withOperands o := by
  rw [finishFrame, finishFrame, withOperands_rspLength, withOperands_rxbuf, withOperands_rxCount]
  cases decodeFrame p.verifyRxChecksum s.rspLength (s.rxbuf.slice 0 s.rxCount.toNat) with
  | decoded t pl c k => exact parse_withOperands o { endReception s with
      rspValid := true, decErr := .none, rspType := t, rspChecksum := c, rspCalcChecksum := k } t pl
  | frameTooShort | lengthMismatch | checksumMismatch t c k => rfl

theorem takeLength_withOperands (b : Byte) :
    takeLength p b (s.withOperands o) = (takeLength p b s).withOperands o := by
  rw [takeLength, takeLength, apply_ite (State.withOperands · o), ← finishFrame_withOperands]
  rfl

theorem takeBody_withOperands (b : Byte) : takeBody p b (s.withOperands o) = (takeBody p b s).withOperands o := by
  rw [takeBody, takeBody, apply_ite (State.withOperands · o), ← finishFrame_withOperands]
  rfl

/-! ### The receiver's events -/

theorem receiverStep_withOperands : receiverStep p (s.withOperands o) = (receiverStep p s).withOperands o := by
  rcases receiverStep_cases p s with ⟨hoff, h⟩ | ⟨b, q, hq, hs, h⟩ | ⟨b, q, hq, hs, h⟩ <;> rw [h]
  · exact receiverStep_of_disabled p (s := s.withOperands o) hoff
  · exact (receiverStep_of_waitLen p (s := s.withOperands o) hs hq).trans (takeLength_withOperands o p (setRxq q s) b)
  · exact (receiverStep_of_collect p (s := s.withOperands o) hs hq).trans (takeBody_withOperands o p (setRxq q s) b)

theorem deliverByte_withOperands (b : Byte) :
    deliverByte p b (s.withOperands o) = (deliverByte p b s).withOperands o := by
  rw [deliverByte, deliverByte, apply_ite (State.withOperands · o)]
  rfl

theorem readTimeout_withOperands : readTimeout p (s.withOperands o) = (readTimeout p s).withOperands o := by
  rcases readTimeout_cases p s with ⟨hoff, h⟩ | ⟨hs, hq, h⟩ | ⟨hs, hq, h⟩ <;> rw [h]
  · exact if_pos hoff
  · exact readTimeout_of_waitLen p (s := s.withOperands o) hs hq
  · exact (readTimeout_of_collect p (s := s.withOperands o) hs hq).trans (finishFrame_withOperands o p s)

end

/-- Replacing the operands before an event of the receiver or after it is the same. -/
theorem exec_receiverEvent_withOperands (o : Operands) {s t : State} {i : Instr} {b : Byte}
    (hi : i = .rxByte b ∨ i = .rxTimeout ∨ i = .rxStep) (h : exec i s = .next t) :
    exec i (s.withOperands o) = .next (t.withOperands o) := by
  rcases hi with rfl | rfl | rfl <;> cases h
  · exact congrArg Host.Outcome.next (deliverByte_withOperands o _ s b)
  · exact congrArg Host.Outcome.next (readTimeout_withOperands o _ s)
  · exact congrArg Host.Outcome.next (receiverStep_withOperands o _ s)

/-- Settles O47, by the operands as one bundle. -/
theorem operandsDoNotReachTheReception : Obligations.OperandsDoNotReachTheReception :=
  fun _ _ _ _ addr len baud ftype jump n buf hi h =>
    exec_receiverEvent_withOperands ⟨addr, len, baud, ftype, jump, n, buf⟩ hi h

end Sys2Proof.Machine
end

section
/-! Host errors (R12, R92, R205, R220, R224, R226, R231): what each check of a CMD write decides, what a refusal leaves,
and that none stops the block: obligations O5, O19, O20. -/

namespace Sys2Proof.Machine

/-! ### The fields of a CMD value as numbers -/

theorem cmdType_toNat (v : Word) : (cmdType v).toNat = v.toNat % 256 := by simp [cmdType]

theorem cmdOp_toNat (v : Word) : (cmdOp v).toNat = v.toNat / 256 % 256 := by
  simp [cmdOp, Nat.shiftRight_eq_div_pow]

theorem cmdReserved_eq_zero_iff (v : Word) : cmdReserved v = 0#16 ↔ v.toNat < 65536 := by
  have hNat : (cmdReserved v).toNat = v.toNat / 65536 % 65536 := by
    simp [cmdReserved, Nat.shiftRight_eq_div_pow]
  rw [BitVec.toNat_eq, hNat, BitVec.toNat_ofNat]
  omega

theorem cmdOp_eq_of_toNat {v : Word} {op : Byte} (h : v.toNat / 256 % 256 = op.toNat) : cmdOp v = op :=
  BitVec.eq_of_toNat_eq ((cmdOp_toNat v).trans h)

/-! ### The checks before an operation is known (R226, steps 1 to 4) -/

theorem decodeCommand_of_reserved {v : Word} (h : cmdReserved v ≠ 0#16) : decodeCommand v = .error .reservedField :=
  if_pos h

section
variable {v : Word} (hReserved : cmdReserved v = 0#16)
include hReserved

theorem decodeCommand_of_illegalOp (hOp : 4 ≤ (cmdOp v).toNat) : decodeCommand v = .error .illegalOp := by
  rw [decodeCommand, if_neg (not_not.2 hReserved), if_pos hOp]

theorem decodeCommand_of_illegalType (hOp : cmdOp v = 0#8) (hType : cmdType v ∉ serializeTable.map Prod.fst) :
    decodeCommand v = .error .illegalType := by
  have hLookup : serializeTable.lookup (cmdType v) = none :=
    List.lookup_eq_none_iff.2 fun e he => bne_iff_ne.2 fun hKey => hType (hKey ▸ List.mem_map_of_mem he)
  rw [decodeCommand, if_neg (not_not.2 hReserved), hOp, hLookup]
  rfl

/-- RECV and CLEAR ask for TYPE 0 (R92). -/
theorem decodeCommand_of_reservedType (hOp : cmdOp v = 2#8 ∨ cmdOp v = 3#8) (hType : cmdType v ≠ 0#8) :
    decodeCommand v = .error .reservedField := by
  rw [decodeCommand, if_neg (not_not.2 hReserved)]
  rcases hOp with hOp | hOp <;> rw [hOp] <;> exact if_pos hType

/-- With OP 1 a CMD value is the word of ENCODE_RAW, whatever its TYPE (R91). -/
theorem eq_encodeCommand_encodeRaw (hOp : cmdOp v = 1#8) : v = encodeCommand (.encodeRaw (cmdType v)) := by
  conv_lhs => rw [← cmd_fields v, hReserved, hOp]
  rfl

end

/-- A CMD value that is no operation is refused with its code (R92, R224). -/
theorem exec_cmdWrite_of_rejected {v : Word} {e : CmdReject} (s : State) (h : decodeCommand v = .error e) :
    exec (.regWrite 0 v) s = .next { s with hostErr := rejectCode e } := by
  simp only [exec_regWrite_cmd, runCommand, h, raiseHostError]

/-- A CMD value given as a number runs the operation whose word it is (R205). -/
theorem exec_cmdWrite_of_toNat {v : Word} (c : Command) (s : State) (h : v.toNat = (encodeCommand c).toNat) :
    exec (.regWrite 0 v) s = exec c.toInstr s :=
  BitVec.eq_of_toNat_eq h ▸ exec_cmdWrite c s

/-- Settles O19: the first four checks are the decoder's, in its order; the others are each operation's own. -/
theorem cmdChecksFollowTheirOrder : Obligations.CmdChecksFollowTheirOrder := by
  intro s v op ty refused
  obtain ⟨_, _, hRawTooLong⟩ := encodeRawEmitsBuffer
  obtain ⟨_, _, hWriteTooLong⟩ := flashWriteEmitsAddressThenData
  obtain ⟨_, _, hBaudOutOfRange⟩ := changeBaudEmitsNearestDivisor
  obtain ⟨_, _, hBusy⟩ := recvArmsAnIdleReceiver
  have hTy : (cmdType v).toNat = ty := cmdType_toNat v
  have hReserved (hv : v.toNat < 65536) : cmdReserved v = 0#16 := (cmdReserved_eq_zero_iff v).2 hv
  refine ⟨?reserved, ?illegalOp, ?illegalType, ?reservedType, ?busy, ?rawTooLong, ?writeTooLong, ?baud⟩
  case reserved =>
    intro hv
    exact exec_cmdWrite_of_rejected s (decodeCommand_of_reserved fun h =>
      Nat.not_lt.2 hv ((cmdReserved_eq_zero_iff v).1 h))
  case illegalOp =>
    intro hv hOp
    exact exec_cmdWrite_of_rejected s (decodeCommand_of_illegalOp (hReserved hv) (cmdOp_toNat v ▸ hOp))
  case illegalType =>
    intro hv hOp hType
    have hKeys : cmdType v ∉ serializeTable.map Prod.fst := fun hKey =>
      hType (hTy ▸ List.mem_map_of_mem (f := BitVec.toNat) hKey)
    exact exec_cmdWrite_of_rejected s (decodeCommand_of_illegalType (hReserved hv) (cmdOp_eq_of_toNat hOp) hKeys)
  case reservedType =>
    intro hv hOp hType
    have hNonzero : cmdType v ≠ 0#8 := fun hZero => hType (hTy ▸ congrArg BitVec.toNat hZero)
    exact exec_cmdWrite_of_rejected s
      (decodeCommand_of_reservedType (hReserved hv) (hOp.imp cmdOp_eq_of_toNat cmdOp_eq_of_toNat) hNonzero)
  case busy =>
    intro hv harmed
    exact (exec_cmdWrite_of_toNat .recv s hv).trans (hBusy s harmed)
  case rawTooLong =>
    intro hv hOp hlen
    have hWord := eq_encodeCommand_encodeRaw (hReserved hv) (cmdOp_eq_of_toNat hOp)
    exact (exec_cmdWrite_of_toNat _ s (congrArg _ hWord)).trans (hRawTooLong _ s hlen)
  case writeTooLong =>
    intro hv hlen
    exact (exec_cmdWrite_of_toNat .flashWrite s hv).trans (hWriteTooLong s hlen)
  case baud =>
    intro hv hbaud
    exact (exec_cmdWrite_of_toNat .changeBaud s hv).trans (hBaudOutOfRange s hbaud)

/-! ### A refused write to CMD -/

/-- Settles O20: of the things a write to CMD can do, all but the raising of an error leave HOST_ERR = NONE. -/
theorem refusedCommandOnlySetsHostErr : Obligations.RefusedCommandOnlySetsHostErr := by
  intro s t v h hErr
  rcases execRegWrite_cases h with ⟨e, rfl, _⟩ | hStore | ⟨_, ty, p, _, rfl⟩ | ⟨_, _, rfl⟩ | ⟨_, _, rfl⟩
  case inl => rfl
  case inr.inl => cases (storeReg_cmd v s).symm.trans hStore
  all_goals exact absurd rfl hErr

/-! ### Nothing stops the block -/

/-- Every operation of CMD completes: a refused one raises an error and goes on (R220). -/
theorem runDecoded_completes (c : Command) (s : State) : ∃ t, runDecoded c s = .next t := by
  rcases runDecoded_cases c s with ⟨e, _, h⟩ | ⟨ty, p, _, h⟩ | ⟨_, _, h⟩ | ⟨_, h⟩ <;> exact ⟨_, h⟩

theorem runCommand_completes (v : Word) (s : State) : ∃ t, runCommand v s = .next t := by
  rcases runCommand_cases v s with ⟨e, _, h⟩ | ⟨c, _, h⟩
  · exact ⟨_, h⟩
  · exact h ▸ runDecoded_completes c s

/-- A bus write runs a command, stores, or is refused with BAD_REG (R201, R202, R205). -/
theorem execRegWrite_completes (n : RegNum) (v : Word) (s : State) : ∃ t, execRegWrite n v s = .next t := by
  unfold execRegWrite
  split
  · exact runCommand_completes v s
  · split <;> exact ⟨_, rfl⟩

theorem exec_completes (i : Instr) (s : State) : ∃ t, exec i s = .next t := by
  have command (c : Command) : ∃ t, exec c.toInstr s = .next t := runDecoded_eq_exec c s ▸ runDecoded_completes c s
  cases i with
  | flashErase => exact command .flashErase
  | flashWrite => exact command .flashWrite
  | flashRead => exact command .flashRead
  | ramRead => exact command .ramRead
  | flashId => exact command .flashId
  | changeBaud => exact command .changeBaud
  | selectFlashType => exact command .selectFlashType
  | chipId => exact command .chipId
  | encodeRaw t => exact command (.encodeRaw t)
  | recv => exact command .recv
  | clear => exact command .clear
  | regWrite n v => exact execRegWrite_completes n v s
  | regRead | rxByte | rxTimeout | rxStep | rspChipId | rspFlashId | rspBaudAck | rspGeneric => exact ⟨_, rfl⟩

/-- A step runs one operation or settles without one (R69). -/
theorem step_completes (s : State) : ∃ t, step s = .next t := by
  unfold step
  cases fetch s with
  | run i t => exact exec_completes i t
  | settled t => exact ⟨t, rfl⟩

/-- Settles O5. -/
theorem everyOperationCompletes : Obligations.EveryOperationCompletes := ⟨exec_completes, step_completes⟩

end Sys2Proof.Machine
end

section
/-! Reset (R250, R251) and the end of an armed reception that is starved (R124, R264): obligations O2, O51. -/

namespace Sys2Proof.Machine

/-! ### Reset -/

theorem step_of_reset {s : State} {rest : List Input} (h : s.pending = .reset :: rest) :
    step s = .next (resetBlock { s with pending := rest }) := by
  rw [step, fetch, h]

/-- Settles O2. -/
theorem resetInputRestoresResetState : Obligations.ResetInputRestoresResetState := fun _ _ => step_of_reset

/-! ### An armed reception ends -/

/-- The reception is over (R125, R128). -/
def ReceptionEnded (s : State) : Prop := s.rxState = .idle ∧ s.rspDone = true

theorem receptionEnded_finishFrame (p : Config.Params) (s : State) : ReceptionEnded (finishFrame p s) :=
  let ⟨hidle, hdone, _⟩ := finishFrame_ended p s
  ⟨hidle, hdone⟩

theorem receptionEnded_transportTimeout (s : State) : ReceptionEnded (transportTimeout s) := ⟨rfl, rfl⟩

/-- An enabled RX_STEP ends the reception or leaves the receiver armed (R122, R123). -/
theorem receiverStep_ends_or_stays_armed (p : Config.Params) {s : State} {b : Byte} {q : List Byte}
    (harmed : s.rxState ≠ .idle) (hq : s.rxq = b :: q) :
    ReceptionEnded (receiverStep p s) ∨ (receiverStep p s).rxState ≠ .idle := by
  cases hs : s.rxState with
  | idle => exact absurd hs harmed
  | waitLen =>
    rw [receiverStep_of_waitLen p hs hq, takeLength]
    split
    · exact .inl (receptionEnded_finishFrame p _)
    · exact .inr (by simp)
  | collect =>
    rw [receiverStep_of_collect p hs hq, takeBody]
    split
    · exact .inl (receptionEnded_finishFrame p _)
    · exact .inr (by simp [hs])

theorem receiverStep_rxq (p : Config.Params) {s : State} {b : Byte} {q : List Byte} (harmed : s.rxState ≠ .idle)
    (hq : s.rxq = b :: q) : (receiverStep p s).rxq = q := by
  obtain ⟨t, hStep, _⟩ := receiverStep_takes_oldest p harmed hq
  rw [hStep, setRxq_rxq]

theorem receiverStep_pending (p : Config.Params) (s : State) : (receiverStep p s).pending = s.pending := by
  obtain ⟨_, _, _, _, _, _, _, _, _, _, _, _, hpending⟩ := sameHostSide_receiverStep p s
  exact hpending

/-- With nothing else pending, an armed receiver takes one byte of RXQ a step until its reception ends or RXQ is empty
(R121; log 4). -/
theorem run_ends_or_drains (q : List Byte) : ∀ {s : State}, s.pending = [] → s.rxState ≠ .idle → s.rxq = q →
    ∃ k t, k ≤ q.length ∧ Sys2Proof.core.run k s = .next t ∧ (ReceptionEnded t ∨ t.rxState ≠ .idle ∧ t.rxq = []) := by
  induction q with
  | nil => exact fun {s} _ harmed hq => ⟨0, s, Nat.le_refl 0, rfl, .inr ⟨harmed, hq⟩⟩
  | cons b q ih =>
    intro s hp harmed hq
    have hRun := run_succ_of_rxStep hp harmed hq
    rcases receiverStep_ends_or_stays_armed Config.params harmed hq with hended | harmed'
    · exact ⟨1, _, by simp, hRun 0, .inl hended⟩
    · obtain ⟨k, t, hk, hrest, ht⟩ :=
        ih ((receiverStep_pending _ s).trans hp) harmed' (receiverStep_rxq _ harmed hq)
      exact ⟨k + 1, t, Nat.succ_le_succ hk, (hRun k).trans hrest, ht⟩

/-- A timeout ends a starved reception, and does not touch one that is over (R124). -/
theorem receptionEnded_readTimeout (p : Config.Params) {s : State}
    (h : ReceptionEnded s ∨ s.rxState ≠ .idle ∧ s.rxq = []) : ReceptionEnded (readTimeout p s) := by
  rcases readTimeout_cases p s with ⟨hoff, hr⟩ | ⟨_, _, hr⟩ | ⟨_, _, hr⟩ <;> rw [hr]
  · refine h.resolve_right fun ⟨harmed, hempty⟩ => ?_
    exact hoff.elim harmed (absurd hempty)
  · exact receptionEnded_transportTimeout s
  · exact receptionEnded_finishFrame p s

/-- Settles O51: the bytes in RXQ end the reception or run out, and then the timeout ends it. -/
theorem armedReceptionEnds : Obligations.ArmedReceptionEnds := by
  intro s _ harmed hp
  obtain ⟨k, t, hk, hrun, ht⟩ := run_ends_or_drains s.rxq hp harmed rfl
  exact ⟨k, t, readTimeout Config.params t, hk, hrun, rfl, receptionEnded_readTimeout _ ht⟩

end Sys2Proof.Machine
end
